-- ==== Sys2Proof/Word.lean ====
section
/-! DEFINITION. The widths that stand on the line: a byte and a two-byte field. Quantities the part counts are
plain natural numbers; only what an agent sends or receives as bits is a bit vector. -/
namespace Sys2Proof

/-- One character of a line, or one byte of a frame (R157, R184). -/
abbrev Byte := BitVec 8

/-- A two-byte field of a request (R185: most significant byte first). -/
abbrev Half := BitVec 16

/-- A call sign as it is stored and compared: its seven padded bytes, letters in upper case (R45). -/
abbrev Call := List Byte

end Sys2Proof
end

