-- ==== Sys2Proof/Config.lean ====
section
/-! DEFINITION. The fixed sizes of the part, and the three choices that its manual leaves open. -/
namespace Sys2Proof.Config

/-- The largest store-clock value (R1). -/
abbrev clockMax : Nat := 4294967295
/-- The message slots of the Traffic Store (R3). -/
abbrev slots : Nat := 128
/-- The blocks of the body pool (R9). -/
abbrev blocks : Nat := 2048
/-- The bytes of one block (R9). -/
abbrev blockBytes : Nat := 32
/-- The longest body (R31). -/
abbrev bodyMax : Nat := 2048
/-- The slots kept for LIFE traffic (R11). -/
abbrev slotReserve : Nat := 8
/-- The blocks kept for LIFE and PRIORITY bodies (R12). -/
abbrev blockReserve : Nat := 128
/-- The store is low at this many free slots or fewer (R13). -/
abbrev lowSlots : Nat := 16
/-- The store is low at this many free blocks or fewer (R13). -/
abbrev lowBlocks : Nat := 256
/-- The keys the recent-key ring holds at most (R40). -/
abbrev ringMax : Nat := 64
/-- The entries of the Station Book (R44). -/
abbrev entries : Nat := 64
/-- The entries a hand-off list holds at most (R121). -/
abbrev listMax : Nat := 4
/-- Where every traffic counter holds (R141). -/
abbrev counterMax : Nat := 65535
/-- The highest local number (R6). -/
abbrev numberMax : Nat := 9999
/-- The age, in seconds, up to which an affinity is current (R59). -/
abbrev affinityAge : Nat := 1800
/-- The start mark of a frame (R157). -/
abbrev startMark : Byte := 0x5A

/-- FREE VALUE: which free block a body takes next. The manual says only that it is not visible to agents (R9). The argument is
the model's own count of the blocks taken so far; the value is reduced to a place in the list of free blocks, so that whatever
it is, the block taken is free. See the assumption log, entry 3. -/
opaque freeBlock : Nat → Nat

/-- FREE VALUE: the order of two auto-purge candidates of equal filing sequence, which arise only after the counter has stopped at
its maximum (R8) and for which no rule states an order (R17). The argument is a local number. See the log, entry 4. -/
opaque purgeTie : Nat → Nat

end Sys2Proof.Config
end

