-- ==== Sys2Proof/Syntax.lean ====
section
/-! DEFINITION. The commands of the part: one constructor of Instr for each row of the table of operations and events. -/
namespace Sys2Proof

/-- The six agent ports. -/
inductive Port where
  | p0 | p1 | p2 | p3 | p4 | p5
deriving DecidableEq, Repr

/-- One value for each of the six ports. -/
structure PerPort (α : Type) where
  p0 : α
  p1 : α
  p2 : α
  p3 : α
  p4 : α
  p5 : α
deriving DecidableEq, Repr

/-- The levels of a pair of straps, true for high (R154, R155). -/
structure StrapPair where
  a : Bool
  b : Bool
deriving DecidableEq, Repr

/-- The strap levels as a start-up reads them: ROLEA and ROLEB of each port, RATEA and RATEB (R154, R155). -/
structure Straps where
  roles : PerPort StrapPair
  rate  : StrapPair
deriving DecidableEq, Repr

/-- A complete request frame as a receiver hands it on: the kind, the tag and the fields (R158). -/
structure Frame where
  kind   : Byte
  tag    : Byte
  fields : List Byte
deriving DecidableEq, Repr

/-- The commands. A request is named with the port whose agent sends it, the tag of its frame and its fields in the order of
R184, each at its width on the line, so that a malformed value can be written down and is refused by the part as the rules say.
The events that follow name what they concern: a port, a list entry, a copy, a grade, the levels on the straps. -/
inductive Instr where
  /-- STATUS (R153). -/
  | status (p : Port) (tag : Byte)
  /-- CLEAR EVENTS: the event set (R171). -/
  | clearEvents (p : Port) (tag : Byte) (set : Half)
  /-- SET EVENT MASK: the event set (R172). -/
  | setEventMask (p : Port) (tag : Byte) (set : Half)
  /-- READ HEADER: local number, first index (R146). -/
  | readHeader (p : Port) (tag : Byte) (number : Half) (first : Byte)
  /-- READ BODY: local number, offset (R148). -/
  | readBody (p : Port) (tag : Byte) (number offset : Half)
  /-- LIST TRAFFIC: start-after, message-state set, precedence set, copy-state set (R149). -/
  | listTraffic (p : Port) (tag : Byte) (after : Half) (states precs copies : Byte)
  /-- READ STATION: entry index (R53). -/
  | readStation (p : Port) (tag : Byte) (entry : Byte)
  /-- FIND STATION: call sign (R53). -/
  | findStation (p : Port) (tag : Byte) (call : List Byte)
  /-- READ COUNTERS (R152). -/
  | readCounters (p : Port) (tag : Byte)
  /-- RANK QUERY: local number, addressee index, port (R95). -/
  | rankQuery (p : Port) (tag : Byte) (number : Half) (index port : Byte)
  /-- READ HAND-OFF LIST: port (R151). -/
  | readHandOffList (p : Port) (tag : Byte) (port : Byte)
  /-- LODGE OPEN: precedence, origin call, origin serial, word check, addressee calls (R24). -/
  | lodgeOpen (p : Port) (tag : Byte) (prec : Byte) (origin : List Byte) (serial check : Half) (addressees : List (List Byte))
  /-- LODGE PART: body bytes (R31). -/
  | lodgePart (p : Port) (tag : Byte) (body : List Byte)
  /-- LODGE CLOSE (R34). -/
  | lodgeClose (p : Port) (tag : Byte)
  /-- LODGE DROP (R36). -/
  | lodgeDrop (p : Port) (tag : Byte)
  /-- REPORT: local number, addressee index, outcome, relay call (R132). -/
  | report (p : Port) (tag : Byte) (number : Half) (index outcome : Byte) (relay : List Byte)
  /-- EXTEND: local number, addressee index (R130). -/
  | extend (p : Port) (tag : Byte) (number : Half) (index : Byte)
  /-- CHANNEL OPEN (R122). -/
  | channelOpen (p : Port) (tag : Byte)
  /-- CHANNEL CLOSE (R123). -/
  | channelClose (p : Port) (tag : Byte)
  /-- ASK: count, filter call (R124). -/
  | ask (p : Port) (tag : Byte) (count : Byte) (filter : List Byte)
  /-- WITHDRAW ASK (R126). -/
  | withdrawAsk (p : Port) (tag : Byte)
  /-- HEARD: call sign, grade (R55). -/
  | heard (p : Port) (tag : Byte) (call : List Byte) (grade : Byte)
  /-- TAKE LOCAL (R142). -/
  | takeLocal (p : Port) (tag : Byte)
  /-- SET OWN CALL: call sign (R46). -/
  | setOwnCall (p : Port) (tag : Byte) (call : List Byte)
  /-- SET STATION: call sign, port set, six grades, clear-affinity flag (R51). -/
  | setStation (p : Port) (tag : Byte) (call : List Byte) (ports : Byte) (grades : PerPort Byte) (clear : Byte)
  /-- REMOVE STATION: call sign (R52). -/
  | removeStation (p : Port) (tag : Byte) (call : List Byte)
  /-- SET RANKING: four aging rates, retry penalty, fit weight (R93). -/
  | setRanking (p : Port) (tag : Byte) (life priority welfare routine penalty fit : Byte)
  /-- SET DISPATCH: tiers, run lengths, affinity window, decay period (R117). -/
  | setDispatch (p : Port) (tag : Byte) (tiers runs : PerPort Byte) (window : Half) (decay : Byte)
  /-- SET HAND-OFF: four hand-off times, four attempt limits, lapse limit (R140). -/
  | setHandOff (p : Port) (tag : Byte) (tLife tPriority tWelfare tRoutine : Half) (lLife lPriority lWelfare lRoutine lapse : Byte)
  /-- SET CHANNEL ADMIN: port, mode (R127). -/
  | setChannelAdmin (p : Port) (tag : Byte) (port mode : Byte)
  /-- RESTORE CHANNEL: port (R139). -/
  | restoreChannel (p : Port) (tag : Byte) (port : Byte)
  /-- CANCEL: local number, selector (R75). -/
  | cancel (p : Port) (tag : Byte) (number : Half) (selector : Byte)
  /-- PIN: local number, addressee index, target (R80). -/
  | pin (p : Port) (tag : Byte) (number : Half) (index target : Byte)
  /-- REQUEUE: local number, selector (R83). -/
  | requeue (p : Port) (tag : Byte) (number : Half) (selector : Byte)
  /-- PURGE: local number (R14). -/
  | purge (p : Port) (tag : Byte) (number : Half)
  /-- SET STORE: auto-purge flag, open timeout (R18). -/
  | setStore (p : Port) (tag : Byte) (auto : Byte) (timeout : Half)
  /-- CLEAR STORE (R19). -/
  | clearStore (p : Port) (tag : Byte)
  /-- CLEAR COUNTERS (R141). -/
  | clearCounters (p : Port) (tag : Byte)
  /-- SET ANNUNCIATOR: function codes for AN0 to AN3 (R176). -/
  | setAnnunciator (p : Port) (tag : Byte) (an0 an1 an2 an3 : Byte)
  /-- GRANT: the Dispatch Unit takes its next grant (R101, R109). -/
  | grant
  /-- STORE CLOCK TICK: a second ends (R1). -/
  | storeClockTick
  /-- OPEN TIMEOUT EXPIRY of the lodge context of a port (R37). -/
  | openTimeoutExpiry (p : Port)
  /-- DEADLINE EXPIRY of the entry of a port's list for a copy (R131). -/
  | deadlineExpiry (p : Port) (number index : Nat)
  /-- HOLD END of a copy (R114). -/
  | holdEnd (number index : Nat)
  /-- DECAY of the grade of an entry at a port (R58). -/
  | decay (entry : Nat) (port : Port)
  /-- RECEIVE CHARACTER: a sound character on a port's line (R157). -/
  | receiveCharacter (p : Port) (b : Byte)
  /-- FRAMING ERROR on a port's line (R157). -/
  | framingError (p : Port)
  /-- BREAK on a port's line (R157). -/
  | lineBreak (p : Port)
  /-- FRAME GAP EXPIRY on a port's line (R157). -/
  | frameGapExpiry (p : Port)
  /-- REPLY SENT: the last byte of a port's reply has gone (R162). -/
  | replySent (p : Port)
  /-- MAIN POWER APPLIED, with the strap levels that the start-up reads (R178, R181). -/
  | mainPowerApplied (straps : Straps)
  /-- RESET ASSERTED, with the strap levels that the start-up reads (R179, R181). -/
  | resetAsserted (straps : Straps)
  /-- MAIN POWER LOST (R177). -/
  | mainPowerLost
  /-- BACKUP SUPPLY LOST: the backup supply falls below its retention level (R178). -/
  | backupSupplyLost
  /-- START-UP END: the steps of the start-up are done, with the level of RESET at that moment (R179, R183). -/
  | startUpEnd (resetHeld : Bool)
  /-- LINE RETURNS TO MARK after a break on a port's line (R159). -/
  | lineReturnsToMark (p : Port)
deriving DecidableEq, Repr

namespace Port

/-- The ports in rising order. -/
def all : List Port := [.p0, .p1, .p2, .p3, .p4, .p5]

end Port

end Sys2Proof
end

