-- ==== Sys2Proof/WellFormed.lean ====
section
/-! DEFINITION. Which commands are well formed: the lengths a frame of the kind can carry, and the ranges of the names the
part's own events use. A request that is not well formed is still answered: its frame has a length the kind does not allow
(R163, test 3). -/
namespace Sys2Proof

/-- A call-sign field occupies seven bytes (R45). -/
def callField (c : List Byte) : Bool := c.length == 7

/-- A command is well formed when its fields have the lengths of R184 and its event names are in range. -/
def Instr.wellFormed : Instr → Bool
  | .findStation _ _ c | .heard _ _ c _ | .setOwnCall _ _ c | .setStation _ _ c _ _ _ | .removeStation _ _ c => callField c
  | .lodgeOpen _ _ _ origin _ _ as => callField origin && as.all callField && 1 ≤ as.length && as.length ≤ 8
  | .lodgePart _ _ body => 1 ≤ body.length && body.length ≤ 48
  | .report _ _ _ _ _ relay => callField relay
  | .ask _ _ _ filter => callField filter
  | .deadlineExpiry _ n i | .holdEnd n i => 1 ≤ n && n ≤ Config.numberMax && i ≤ 7
  | .decay e _ => e < Config.entries
  | .status .. | .clearEvents .. | .setEventMask .. | .readHeader .. | .readBody .. | .listTraffic .. | .readStation ..
  | .readCounters .. | .rankQuery .. | .readHandOffList .. | .lodgeClose .. | .lodgeDrop .. | .extend .. | .channelOpen ..
  | .channelClose .. | .withdrawAsk .. | .takeLocal .. | .setRanking .. | .setDispatch .. | .setHandOff .. | .setChannelAdmin ..
  | .restoreChannel .. | .cancel .. | .pin .. | .requeue .. | .purge .. | .setStore .. | .clearStore .. | .clearCounters ..
  | .setAnnunciator .. | .grant | .storeClockTick | .openTimeoutExpiry _ | .receiveCharacter .. | .framingError _ | .lineBreak _
  | .frameGapExpiry _ | .replySent _ | .mainPowerApplied _ | .resetAsserted _ | .mainPowerLost | .backupSupplyLost
  | .startUpEnd _ | .lineReturnsToMark _ => true

end Sys2Proof
end

