-- ==== Sys2Proof/Decode.lean ====
section
/-! DEFINITION. From bits to commands. The table of operations gives no row any bits, so no word of the table spells a command. On
a port's line a request does have an encoding, its frame (R184): the frame of each request is written here, and the reading of
a frame beside it. -/
namespace Sys2Proof

/-- The command that a word spells by the bits of spec/opcode_table.json. The table gives none of its rows any bits: log, entry 11. -/
def decodeTableWord (_nbits _w : Nat) : Option Instr := none

/-- The high byte of a two-byte field. -/
def hiByte (h : Half) : Byte := h.extractLsb' 8 8
/-- The low byte of a two-byte field. -/
def loByte (h : Half) : Byte := h.extractLsb' 0 8
/-- A two-byte field from its bytes, most significant first (R185). -/
def halfOf (hi lo : Byte) : Half := hi ++ lo

/-- A list cut into `n` pieces of seven bytes. -/
def cutCalls : Nat → List Byte → List (List Byte)
  | 0, _ => []
  | n + 1, bs => bs.take 7 :: cutCalls n (bs.drop 7)

/-- The frame in which an agent sends a request, and the port it arrives at: kind, tag and fields in the order of R184. An event
of the part's own has no frame. -/
def Instr.toFrame : Instr → Option (Port × Frame)
  | .status p t => some (p, ⟨0x01, t, []⟩)
  | .clearEvents p t e => some (p, ⟨0x02, t, [hiByte e, loByte e]⟩)
  | .setEventMask p t e => some (p, ⟨0x03, t, [hiByte e, loByte e]⟩)
  | .readHeader p t n i => some (p, ⟨0x04, t, [hiByte n, loByte n, i]⟩)
  | .readBody p t n o => some (p, ⟨0x05, t, [hiByte n, loByte n, hiByte o, loByte o]⟩)
  | .listTraffic p t n a b c => some (p, ⟨0x06, t, [hiByte n, loByte n, a, b, c]⟩)
  | .readStation p t e => some (p, ⟨0x07, t, [e]⟩)
  | .findStation p t c => some (p, ⟨0x08, t, c⟩)
  | .readCounters p t => some (p, ⟨0x09, t, []⟩)
  | .rankQuery p t n i k => some (p, ⟨0x0A, t, [hiByte n, loByte n, i, k]⟩)
  | .readHandOffList p t k => some (p, ⟨0x0B, t, [k]⟩)
  | .lodgeOpen p t prec origin serial check as =>
    some (p, ⟨0x10, t, prec :: (origin ++ [hiByte serial, loByte serial, hiByte check, loByte check] ++ as.flatten)⟩)
  | .lodgePart p t body => some (p, ⟨0x11, t, body⟩)
  | .lodgeClose p t => some (p, ⟨0x12, t, []⟩)
  | .lodgeDrop p t => some (p, ⟨0x13, t, []⟩)
  | .report p t n i o relay => some (p, ⟨0x18, t, hiByte n :: loByte n :: i :: o :: relay⟩)
  | .extend p t n i => some (p, ⟨0x19, t, [hiByte n, loByte n, i]⟩)
  | .channelOpen p t => some (p, ⟨0x20, t, []⟩)
  | .channelClose p t => some (p, ⟨0x21, t, []⟩)
  | .ask p t n filter => some (p, ⟨0x22, t, n :: filter⟩)
  | .withdrawAsk p t => some (p, ⟨0x23, t, []⟩)
  | .heard p t c g => some (p, ⟨0x24, t, c ++ [g]⟩)
  | .takeLocal p t => some (p, ⟨0x28, t, []⟩)
  | .setOwnCall p t c => some (p, ⟨0x30, t, c⟩)
  | .setStation p t c ports g clear => some (p, ⟨0x31, t, c ++ [ports, g.p0, g.p1, g.p2, g.p3, g.p4, g.p5, clear]⟩)
  | .removeStation p t c => some (p, ⟨0x32, t, c⟩)
  | .setRanking p t l pr w r pen fit => some (p, ⟨0x33, t, [l, pr, w, r, pen, fit]⟩)
  | .setDispatch p t tr rn w d =>
    some (p, ⟨0x34, t, [tr.p0, rn.p0, tr.p1, rn.p1, tr.p2, rn.p2, tr.p3, rn.p3, tr.p4, rn.p4, tr.p5, rn.p5, hiByte w, loByte w, d]⟩)
  | .setHandOff p t tl tp tw tr ll lp lw lr lapse =>
    some (p, ⟨0x35, t, [hiByte tl, loByte tl, hiByte tp, loByte tp, hiByte tw, loByte tw, hiByte tr, loByte tr, ll, lp, lw, lr, lapse]⟩)
  | .setChannelAdmin p t k m => some (p, ⟨0x36, t, [k, m]⟩)
  | .restoreChannel p t k => some (p, ⟨0x37, t, [k]⟩)
  | .cancel p t n s => some (p, ⟨0x38, t, [hiByte n, loByte n, s]⟩)
  | .pin p t n i k => some (p, ⟨0x39, t, [hiByte n, loByte n, i, k]⟩)
  | .requeue p t n s => some (p, ⟨0x3A, t, [hiByte n, loByte n, s]⟩)
  | .purge p t n => some (p, ⟨0x3B, t, [hiByte n, loByte n]⟩)
  | .setStore p t a o => some (p, ⟨0x3C, t, [a, hiByte o, loByte o]⟩)
  | .clearStore p t => some (p, ⟨0x3D, t, []⟩)
  | .clearCounters p t => some (p, ⟨0x3E, t, []⟩)
  | .setAnnunciator p t a b c d => some (p, ⟨0x3F, t, [a, b, c, d]⟩)
  | .grant | .storeClockTick | .openTimeoutExpiry _ | .deadlineExpiry .. | .holdEnd .. | .decay .. | .receiveCharacter ..
  | .framingError _ | .lineBreak _ | .frameGapExpiry _ | .replySent _ | .mainPowerApplied _ | .resetAsserted _ | .mainPowerLost
  | .backupSupplyLost | .startUpEnd _ | .lineReturnsToMark _ => none

/-- The kind codes of the 39 requests (R184). -/
def requestKinds : List Byte :=
  [0x01, 0x02, 0x03, 0x04, 0x05, 0x06, 0x07, 0x08, 0x09, 0x0A, 0x0B, 0x10, 0x11, 0x12, 0x13, 0x18, 0x19, 0x20, 0x21, 0x22, 0x23,
    0x24, 0x28, 0x30, 0x31, 0x32, 0x33, 0x34, 0x35, 0x36, 0x37, 0x38, 0x39, 0x3A, 0x3B, 0x3C, 0x3D, 0x3E, 0x3F]

/-- Whether a kind is the code of a request (R163, test 1). -/
def isRequestKind (k : Byte) : Bool := requestKinds.contains k

/-- Whether a field length is one that the kind allows (R184; R163, test 3). -/
def fieldLengthOk (k : Byte) (n : Nat) : Bool :=
  match k.toNat with
  | 0x01 | 0x09 | 0x12 | 0x13 | 0x20 | 0x21 | 0x23 | 0x28 | 0x3D | 0x3E => n == 0
  | 0x07 | 0x0B | 0x37 => n == 1
  | 0x02 | 0x03 | 0x36 | 0x3B => n == 2
  | 0x04 | 0x19 | 0x38 | 0x3A | 0x3C => n == 3
  | 0x05 | 0x0A | 0x39 | 0x3F => n == 4
  | 0x06 => n == 5
  | 0x33 => n == 6
  | 0x08 | 0x30 | 0x32 => n == 7
  | 0x22 | 0x24 => n == 8
  | 0x18 => n == 11
  | 0x35 => n == 13
  | 0x31 | 0x34 => n == 15
  | 0x10 => 19 ≤ n && n ≤ 68 && (n - 12) % 7 == 0
  | 0x11 => 1 ≤ n && n ≤ 48
  | _ => false

/-- The request that a frame received at a port carries, where its kind is a request and its fields have a length of the kind:
the fields are cut as R184 orders them, and no value in them is tested. -/
def decodeFrame (p : Port) (f : Frame) : Option Instr :=
  let t := f.tag
  match f.kind.toNat, f.fields with
  | 0x01, [] => some (.status p t)
  | 0x02, [a, b] => some (.clearEvents p t (halfOf a b))
  | 0x03, [a, b] => some (.setEventMask p t (halfOf a b))
  | 0x04, [a, b, i] => some (.readHeader p t (halfOf a b) i)
  | 0x05, [a, b, c, d] => some (.readBody p t (halfOf a b) (halfOf c d))
  | 0x06, [a, b, s, q, c] => some (.listTraffic p t (halfOf a b) s q c)
  | 0x07, [e] => some (.readStation p t e)
  | 0x08, c => if callField c then some (.findStation p t c) else none
  | 0x09, [] => some (.readCounters p t)
  | 0x0A, [a, b, i, k] => some (.rankQuery p t (halfOf a b) i k)
  | 0x0B, [k] => some (.readHandOffList p t k)
  | 0x10, prec :: rest =>
    if fieldLengthOk 0x10 (rest.length + 1) then
      match (rest.drop 7).take 4 with
      | [a, b, c, d] =>
        some (.lodgeOpen p t prec (rest.take 7) (halfOf a b) (halfOf c d) (cutCalls ((rest.length - 11) / 7) (rest.drop 11)))
      | _ => none
    else none
  | 0x11, body => if fieldLengthOk 0x11 body.length then some (.lodgePart p t body) else none
  | 0x12, [] => some (.lodgeClose p t)
  | 0x13, [] => some (.lodgeDrop p t)
  | 0x18, a :: b :: i :: o :: relay => if callField relay then some (.report p t (halfOf a b) i o relay) else none
  | 0x19, [a, b, i] => some (.extend p t (halfOf a b) i)
  | 0x20, [] => some (.channelOpen p t)
  | 0x21, [] => some (.channelClose p t)
  | 0x22, n :: filter => if callField filter then some (.ask p t n filter) else none
  | 0x23, [] => some (.withdrawAsk p t)
  | 0x24, fs =>
    match fs.drop 7 with
    | [g] => some (.heard p t (fs.take 7) g)
    | _ => none
  | 0x28, [] => some (.takeLocal p t)
  | 0x30, c => if callField c then some (.setOwnCall p t c) else none
  | 0x31, fs =>
    match fs.drop 7 with
    | [ports, g0, g1, g2, g3, g4, g5, clear] => some (.setStation p t (fs.take 7) ports ⟨g0, g1, g2, g3, g4, g5⟩ clear)
    | _ => none
  | 0x32, c => if callField c then some (.removeStation p t c) else none
  | 0x33, [l, pr, w, r, pen, fit] => some (.setRanking p t l pr w r pen fit)
  | 0x34, [t0, r0, t1, r1, t2, r2, t3, r3, t4, r4, t5, r5, a, b, d] =>
    some (.setDispatch p t ⟨t0, t1, t2, t3, t4, t5⟩ ⟨r0, r1, r2, r3, r4, r5⟩ (halfOf a b) d)
  | 0x35, [a, b, c, d, e, g, h, i, ll, lp, lw, lr, lapse] =>
    some (.setHandOff p t (halfOf a b) (halfOf c d) (halfOf e g) (halfOf h i) ll lp lw lr lapse)
  | 0x36, [k, m] => some (.setChannelAdmin p t k m)
  | 0x37, [k] => some (.restoreChannel p t k)
  | 0x38, [a, b, s] => some (.cancel p t (halfOf a b) s)
  | 0x39, [a, b, i, k] => some (.pin p t (halfOf a b) i k)
  | 0x3A, [a, b, s] => some (.requeue p t (halfOf a b) s)
  | 0x3B, [a, b] => some (.purge p t (halfOf a b))
  | 0x3C, [u, a, b] => some (.setStore p t u (halfOf a b))
  | 0x3D, [] => some (.clearStore p t)
  | 0x3E, [] => some (.clearCounters p t)
  | 0x3F, [a, b, c, d] => some (.setAnnunciator p t a b c d)
  | _, _ => none

end Sys2Proof
end

