-- ==== Sys2Proof/Machine/State.lean ====
section
/-! DEFINITION. The state of the part, whole (log, entry 14): the retained domain, what is not retained, the pins, and the queue of commands. Every
field is plain data. Each structure names the rule that gives it. -/
namespace Sys2Proof.Machine

/-! ### Values for each port and each precedence -/

end Sys2Proof.Machine

namespace Sys2Proof.PerPort

/-- The value at a port. -/
def get {α : Type} (t : PerPort α) : Port → α
  | .p0 => t.p0
  | .p1 => t.p1
  | .p2 => t.p2
  | .p3 => t.p3
  | .p4 => t.p4
  | .p5 => t.p5

/-- The six values with that of one port replaced. -/
def set {α : Type} (t : PerPort α) (p : Port) (v : α) : PerPort α :=
  match p with
  | .p0 => { t with p0 := v }
  | .p1 => { t with p1 := v }
  | .p2 => { t with p2 := v }
  | .p3 => { t with p3 := v }
  | .p4 => { t with p4 := v }
  | .p5 => { t with p5 := v }

/-- Six values given port by port. -/
def build {α : Type} (f : Port → α) : PerPort α := ⟨f .p0, f .p1, f .p2, f .p3, f .p4, f .p5⟩

/-- One value at all six ports. -/
def same {α : Type} (v : α) : PerPort α := ⟨v, v, v, v, v, v⟩

/-- The six values in port order. -/
def toList {α : Type} (t : PerPort α) : List α := [t.p0, t.p1, t.p2, t.p3, t.p4, t.p5]

end Sys2Proof.PerPort

namespace Sys2Proof.Machine

/-- The four precedences, most urgent first. -/
inductive Prec where
  | life | priority | welfare | routine
deriving DecidableEq, Repr

/-- One value for each precedence. -/
structure PerPrec where
  life     : Nat
  priority : Nat
  welfare  : Nat
  routine  : Nat
deriving DecidableEq, Repr

/-- The value of a precedence. -/
def PerPrec.get (t : PerPrec) : Prec → Nat
  | .life => t.life
  | .priority => t.priority
  | .welfare => t.welfare
  | .routine => t.routine

/-- One value for each of AN0 to AN3. -/
structure Four (α : Type) where
  an0 : α
  an1 : α
  an2 : α
  an3 : α
deriving DecidableEq, Repr

/-- The four values in order. -/
def Four.toList {α : Type} (f : Four α) : List α := [f.an0, f.an1, f.an2, f.an3]

/-- A function applied to each of the four. -/
def Four.map {α β : Type} (g : α → β) (f : Four α) : Four β := ⟨g f.an0, g f.an1, g f.an2, g f.an3⟩

/-! ### Messages and copies -/

/-- The key of a message: origin call and origin serial (R27). -/
structure Key where
  call   : Call
  serial : Nat
deriving DecidableEq, Repr

/-- The state of a filed copy, with the fields that belong to each state and to no other (R62, R64, R66). -/
inductive CopyState where
  | waiting
  | heldFor (port : Port) (ends : Nat)
  | taken (holder : Port)
  | withdrawing (holder : Port)
  | delivered (port : Port) (stamp : Nat) (afterCancel : Bool)
  | relayed (port : Port) (stamp : Nat) (afterCancel : Bool) (relay : Call)
  | failed
  | cancelled
deriving DecidableEq, Repr

/-- A copy record (R62). Its addressee index is its place in the message's copy list; the state is absent while the message is
OPEN. -/
structure Copy where
  station   : Nat
  state     : Option CopyState
  attempts  : Nat
  uncertain : Bool
  pinned    : Option Port
deriving DecidableEq, Repr

/-- The fields a message has from filing (R4). -/
structure Filing where
  wordCount    : Nat
  checkDiffers : Bool
  filedStamp   : Nat
  sequence     : Nat
deriving DecidableEq, Repr

/-- The state of a message with the fields that belong to it: the filing fields from filing, the closed stamp while CLOSED
(R4, R5). -/
inductive Phase where
  | opened
  | filed (f : Filing)
  | closed (f : Filing) (closedStamp : Nat)
deriving DecidableEq, Repr

/-- A message record (R4). -/
structure Message where
  number    : Nat
  phase     : Phase
  prec      : Prec
  origin    : Call
  serial    : Nat
  wordCheck : Nat
  lodgedAt  : Port
  body      : List Byte
  chain     : List Nat
  openStamp : Nat
  copies    : List Copy
deriving DecidableEq, Repr

/-- A lodge context that names an OPEN message, with its open deadline (R23). -/
structure Lodge where
  number   : Nat
  deadline : Nat
deriving DecidableEq, Repr

/-! ### The Station Book -/

/-- The kind of a station entry in use (R44). -/
inductive StationKind where
  | auto | set
deriving DecidableEq, Repr

/-- A reach grade with its last-touched stamp (R44, R54). -/
structure Grade where
  value   : Nat
  touched : Nat
deriving DecidableEq, Repr

/-- An affinity port and its stamp (R59). -/
structure Affinity where
  port  : Port
  stamp : Nat
deriving DecidableEq, Repr

/-- A station entry in use (R44). -/
structure Station where
  call     : Call
  kind     : StationKind
  created  : Nat
  grades   : PerPort Grade
  affinity : Option Affinity
  waiting  : Nat
deriving DecidableEq, Repr

/-! ### Settings -/

/-- Store settings (R18). -/
structure StoreSettings where
  autoPurge   : Bool
  openTimeout : Nat
deriving DecidableEq, Repr

/-- Ranking settings (R93). -/
structure RankSettings where
  aging   : PerPrec
  penalty : Nat
  fit     : Nat
deriving DecidableEq, Repr

/-- The two tiers of the rotation (R103). -/
inductive Tier where
  | a | b
deriving DecidableEq, Repr

/-- Dispatch settings (R117). -/
structure DispatchSettings where
  tiers  : PerPort Tier
  runs   : PerPort Nat
  window : Nat
  decay  : Nat
deriving DecidableEq, Repr

/-- Hand-off settings (R140). -/
structure HandOffSettings where
  times      : PerPrec
  limits     : PerPrec
  lapseLimit : Nat
deriving DecidableEq, Repr

/-- The annunciator functions (R175). -/
inductive AnnFn where
  | off | lifeOpen | failedHeld | lapsedAny | storeLow | noChannel | on
deriving DecidableEq, Repr

/-! ### Counters -/

/-- The seven counters of a port (R141). -/
structure Counters where
  delivered  : Nat
  relayed    : Nat
  noContact  : Nat
  returned   : Nat
  expiries   : Nat
  lapses     : Nat
  discarded  : Nat
deriving DecidableEq, Repr

/-- The three store-wide counts (R141). -/
structure Totals where
  lodged     : Nat
  duplicates : Nat
  autoPurges : Nat
deriving DecidableEq, Repr

/-! ### Channels, lists and the arbiter -/

/-- The admin modes (R127). -/
inductive AdminMode where
  | none_ | hold | step | bar
deriving DecidableEq, Repr

/-- A channel state. The standing ask, its count and its station filter, stands in ASKING and in no other state (R98). -/
inductive ChanState where
  | closed
  | ready
  | asking (count : Nat) (filter : Option Nat)
  | lapsed
deriving DecidableEq, Repr

/-- A channel context but for the admin mode, which is retained and stands apart (R120). -/
structure Channel where
  state      : ChanState
  lapseCount : Nat
deriving DecidableEq, Repr

/-- An entry of a hand-off list (R121). -/
structure Entry where
  number      : Nat
  index       : Nat
  deadline    : Nat
  extensions  : Nat
  withdrawing : Bool
deriving DecidableEq, Repr

/-- The streak of the arbiter (R107). -/
structure Streak where
  port    : Port
  station : Nat
  count   : Nat
deriving DecidableEq, Repr

/-! ### Ports -/

/-- The role of a port (R154). -/
inductive Role where
  | off | console | intake | channel
deriving DecidableEq, Repr

/-- The line rate of all six ports (R155). -/
inductive Rate where
  | baud19200 | baud38400 | baud57600 | baud115200
deriving DecidableEq, Repr

/-- The state of a receiver, with the frame being received (R156 to R159): in IN_FRAME the length once it is known and the content
characters so far; in RESYNC whether a break is on the line, so that the quiet wait has not begun. -/
inductive Receiver where
  | off
  | hunting
  | inFrame (length : Option Nat) (got : List Byte)
  | resync (atSpace : Bool)
deriving DecidableEq, Repr

/-- The request in service of a port with the reply in progress: the reply frame, and how many of its bytes have gone (R156). An ASK that
has been served waits until its port is in no pair, with the grant records of the grants made to it so far, each as it stood at its grant (R102,
R110). -/
inductive Service where
  | asking (frame : Frame) (clamped stood : Nat) (filter : Option Nat) (records : List (List Byte))
  | replying (frame : Frame) (reply : List Byte) (gone : Nat)
deriving DecidableEq, Repr

/-- The cause of a link fault or overrun (R160, R162). -/
inductive LinkCause where
  | none_ | gap | framing | lineBreak | runt | length | overrun
deriving DecidableEq, Repr

/-- What a Port Unit holds, but for the role and the frames-discarded counter (R156). -/
structure PortUnit where
  receiver  : Receiver
  service   : Option Service
  held      : Option Frame
  lastFault : LinkCause
deriving DecidableEq, Repr

/-! ### Events and power -/

/-- The twelve event kinds, in reporting order (R168). -/
inductive EventKind where
  | lifeFiled | channelLapsed | copyFailed | withdrawn | granted | localWaiting | openExpired | storeLow | duplicateSeen
  | checkDiffers | linkFault | recovered
deriving DecidableEq, Repr

/-- A set of event kinds: bit (order - 1) marks the kind of that reporting order, as on the line (R169, R185). -/
abbrev EventSet := BitVec 12

/-- Where the part stands between off and in service (R179). A start-up remembers whether it is warm and whether its recovery pass
made a copy FAILED, for the events raised at its end (R183). -/
inductive Power where
  | unpowered
  | startUp (warm failed : Bool)
  | running
deriving DecidableEq, Repr

/-- The state of the part. -/
structure State where
  /-- Off, in start-up or in service (R177, R179). -/
  power       : Power
  /-- The RESET input as last seen (R179). -/
  resetHeld   : Bool
  /-- The retention-lost latch (R178). -/
  latch       : Bool
  /-- Whether the retained domain has ever been powered (R178). -/
  everPowered : Bool
  /-- The store clock (R1). -/
  clock       : Nat
  /-- The occupied message slots, in rising local number (R3). -/
  store       : List Message
  /-- The last-assigned local number (R7). -/
  lastNumber  : Nat
  /-- The filing sequence counter (R8). -/
  filingCount : Nat
  /-- The duplicate table (R39). -/
  dupTable    : List Key
  /-- The recent-key ring, oldest first (R40). -/
  ring        : List Key
  /-- The 64 entries of the Station Book, a free one absent (R44). -/
  book        : List (Option Station)
  /-- Store settings (R18). -/
  storeSet    : StoreSettings
  /-- Ranking settings (R93). -/
  ranking     : RankSettings
  /-- Dispatch settings (R117). -/
  dispatch    : DispatchSettings
  /-- Hand-off settings (R140). -/
  handOff     : HandOffSettings
  /-- Annunciator functions (R176). -/
  annFns      : Four AnnFn
  /-- Admin modes, held for every port (R120, R180). -/
  admin       : PerPort AdminMode
  /-- The counters of each port (R141). -/
  counters    : PerPort Counters
  /-- The store-wide counts (R141). -/
  totals      : Totals
  /-- The port roles as read at start-up (R154). -/
  roles       : PerPort Role
  /-- The line rate as read at start-up (R155). -/
  rate        : Rate
  /-- The Port Units (R156). -/
  units       : PerPort PortUnit
  /-- The lodge contexts (R23). -/
  lodges      : PerPort (Option Lodge)
  /-- The hand-off lists, oldest entry first (R121). -/
  lists       : PerPort (List Entry)
  /-- The channel contexts, with the standing asks (R97, R120). -/
  channels    : PerPort Channel
  /-- The first-level rotation pointer: a member key 0 to 6, or none (R103). -/
  firstPtr    : Option Nat
  /-- The tier-B rotation pointer (R103). -/
  tierBPtr    : Option Port
  /-- The streak (R107). -/
  streak      : Option Streak
  /-- The status sets (R170). -/
  status      : PerPort EventSet
  /-- The enable sets (R170). -/
  enable      : PerPort EventSet
  /-- The attention outputs, true for asserted, that is, driven low (R173). -/
  attention   : PerPort Bool
  /-- The annunciator outputs AN0 to AN3, true for asserted (R175). -/
  annOut      : Four Bool
  /-- The previous store-low condition (R13). -/
  prevLow     : Bool
  /-- The recovery count (R182). -/
  recovered   : Nat
  /-- The MODEL's own: how many free-block choices have been made (Config.freeBlock). -/
  picks       : Nat
  /-- The commands that wait, first in first out. -/
  pending     : List Instr
deriving DecidableEq, Repr

/-- Why a step can stop with a fault. The manual describes no condition that stops the part: a request that cannot be served is
answered with a refusal code, a lost frame with LINK_FAULT, and both are next states. So there is none. -/
inductive Fault where
deriving DecidableEq, Repr

/-- Why a step can be refused. -/
inductive Refusal where
  /-- Raised by exec for a command that has no meaning yet; safe, since the machine stops. No command is left in that state. -/
  | notModelled (mnemonic : String)
deriving DecidableEq, Repr

/-! ### The values after a cold start -/

/-- A blank call sign: seven spaces (R45). -/
def blankCall : Call := [0x20, 0x20, 0x20, 0x20, 0x20, 0x20, 0x20]

/-- Entry 0 after a cold start (R44). -/
def coldOwnEntry : Station :=
  { call := blankCall, kind := .set, created := 0, grades := .same ⟨0, 0⟩, affinity := none, waiting := 0 }

/-- The Station Book after a cold start: entry 0 alone (R44). -/
def coldBook : List (Option Station) := some coldOwnEntry :: List.replicate 63 none

/-- Counters at 0. -/
def zeroCounters : Counters := ⟨0, 0, 0, 0, 0, 0, 0⟩

/-- A Port Unit as every start-up leaves it while it lasts (R156). -/
def idleUnit (r : Receiver) : PortUnit := { receiver := r, service := none, held := none, lastFault := .none_ }

/-- The store settings after a cold start (R18). -/
def coldStoreSet : StoreSettings := ⟨true, 90⟩
/-- The ranking settings after a cold start (R94). -/
def coldRanking : RankSettings := ⟨⟨8, 4, 2, 1⟩, 40, 20⟩
/-- The dispatch settings after a cold start (R119). -/
def coldDispatch : DispatchSettings := ⟨.same .a, .same 3, 60, 30⟩
/-- The hand-off settings after a cold start (R140). -/
def coldHandOff : HandOffSettings := ⟨⟨300, 600, 1200, 1800⟩, ⟨15, 8, 5, 3⟩, 3⟩
/-- The annunciator functions after a cold start (R176). -/
def coldAnnFns : Four AnnFn := ⟨.lifeOpen, .failedHeld, .lapsedAny, .storeLow⟩

/-- The machine after reset: a cold start has ended, nothing has happened since, and the straps read P0 as CONSOLE, P1 as OFF, P2 as
INTAKE and P3 to P5 as CHANNEL, at 19,200 baud. DESIGN CHOICE: the straps are the board's, not the manual's (log, entry 1). -/
def State.reset : State :=
  { power := .running, resetHeld := false, latch := false, everPowered := true, clock := 0, store := [], lastNumber := 0,
    filingCount := 0, dupTable := [], ring := [], book := coldBook, storeSet := coldStoreSet, ranking := coldRanking,
    dispatch := coldDispatch, handOff := coldHandOff, annFns := coldAnnFns, admin := .same .none_,
    counters := .same zeroCounters, totals := ⟨0, 0, 0⟩,
    roles := ⟨.console, .off, .intake, .channel, .channel, .channel⟩, rate := .baud19200,
    units := ⟨idleUnit .hunting, idleUnit .off, idleUnit .hunting, idleUnit .hunting, idleUnit .hunting, idleUnit .hunting⟩,
    lodges := .same none, lists := .same [], channels := .same ⟨.closed, 0⟩, firstPtr := none, tierBPtr := none, streak := none,
    status := .same 0, enable := ⟨0xFEF, 0, 0x469, 0x459, 0x459, 0x459⟩, attention := .same false,
    annOut := ⟨false, false, false, false⟩, prevLow := false, recovered := 0, picks := 0, pending := [] }

end Sys2Proof.Machine
end

