-- ==== Sys2Proof/Machine/Operands.lean ====
section
/-! DEFINITION. The values of request fields: what each encoding of R185 means, and what breaks it. -/
namespace Sys2Proof.Machine

/-! ### Ports and codes -/

/-- The number of a port (R185). -/
def portNumber : Port → Nat
  | .p0 => 0
  | .p1 => 1
  | .p2 => 2
  | .p3 => 3
  | .p4 => 4
  | .p5 => 5

/-- The port that a field names, if it names one (R185). -/
def portOf (b : Byte) : Option Port :=
  match b.toNat with
  | 0 => some .p0
  | 1 => some .p1
  | 2 => some .p2
  | 3 => some .p3
  | 4 => some .p4
  | 5 => some .p5
  | _ => none

/-- The precedence of a code (R185). -/
def precOf (b : Byte) : Option Prec :=
  match b.toNat with
  | 0 => some .life
  | 1 => some .priority
  | 2 => some .welfare
  | 3 => some .routine
  | _ => none

/-- The code of a precedence (R185). -/
def precCode : Prec → Nat
  | .life => 0
  | .priority => 1
  | .welfare => 2
  | .routine => 3

/-- The outcomes of a REPORT (R132). -/
inductive ReportOutcome where
  | delivered | relayed | noContact | returned
deriving DecidableEq, Repr

/-- The outcome of a code (R185). -/
def outcomeOf (b : Byte) : Option ReportOutcome :=
  match b.toNat with
  | 0 => some .delivered
  | 1 => some .relayed
  | 2 => some .noContact
  | 3 => some .returned
  | _ => none

/-- The admin mode of a code (R185). -/
def adminOf (b : Byte) : Option AdminMode :=
  match b.toNat with
  | 0 => some .none_
  | 1 => some .hold
  | 2 => some .step
  | 3 => some .bar
  | _ => none

/-- The code of an admin mode (R185). -/
def adminCode : AdminMode → Nat
  | .none_ => 0
  | .hold => 1
  | .step => 2
  | .bar => 3

/-- The annunciator function of a code (R185). -/
def annFnOf (b : Byte) : Option AnnFn :=
  match b.toNat with
  | 0 => some .off
  | 1 => some .lifeOpen
  | 2 => some .failedHeld
  | 3 => some .lapsedAny
  | 4 => some .storeLow
  | 5 => some .noChannel
  | 6 => some .on
  | _ => none

/-- The code of an annunciator function (R185). -/
def annFnCode : AnnFn → Nat
  | .off => 0
  | .lifeOpen => 1
  | .failedHeld => 2
  | .lapsedAny => 3
  | .storeLow => 4
  | .noChannel => 5
  | .on => 6

/-- The tier of a flag byte: 0 is tier A, any other value tier B (R117). -/
def tierOf (b : Byte) : Tier := if b.toNat = 0 then .a else .b

/-! ### Local numbers, indices and selectors -/

/-- A local number in range; 0 and values above 9,999 break the field (R6). -/
def numberOf (h : Half) : Option Nat := if 1 ≤ h.toNat ∧ h.toNat ≤ Config.numberMax then some h.toNat else none

/-- An addressee index in range; values above 7 break the field (R61). -/
def indexOf (b : Byte) : Option Nat := if b.toNat ≤ 7 then some b.toNat else none

/-- An addressee selector: one index, or all copies (R75). -/
inductive Selector where
  | one (index : Nat)
  | all
deriving DecidableEq, Repr

/-- The selector of a code; 8 to 0xFE break the field (R185). -/
def selectorOf (b : Byte) : Option Selector :=
  if b.toNat ≤ 7 then some (.one b.toNat) else if b.toNat = 0xFF then some .all else none

/-- A value brought to the nearest end of its range. -/
def clamp (lo hi n : Nat) : Nat := max lo (min hi n)

/-! ### Call signs (R45) -/

/-- A letter folded to upper case; any other byte as it is. -/
def foldByte (b : Byte) : Byte := if 0x61 ≤ b.toNat ∧ b.toNat ≤ 0x7A then b - 0x20 else b

/-- A character that may stand in a call sign: A to Z, 0 to 9, the stroke. -/
def isCallByte (b : Byte) : Bool :=
  (0x41 ≤ b.toNat && b.toNat ≤ 0x5A) || (0x30 ≤ b.toNat && b.toNat ≤ 0x39) || b == 0x2F

/-- Whether a field is a blank call sign: seven spaces. -/
def isBlankCall (c : List Byte) : Bool := c == blankCall

/-- The valid call sign of a field, folded: 3 to 7 characters, then spaces to fill 7, a stroke neither first nor last. A blank or
invalid field has none. -/
def callOf (field : List Byte) : Option Call :=
  let c := field.map foldByte
  let chars := c.takeWhile (· != 0x20)
  if c.length = 7 ∧ 3 ≤ chars.length ∧ (c.drop chars.length).all (· == 0x20) ∧ chars.all isCallByte
      ∧ chars.head? ≠ some 0x2F ∧ chars.getLast? ≠ some 0x2F
  then some c else none

/-- The addressees of a LODGE OPEN, folded; none when any is not a valid call sign (R24). -/
def callsOf : List (List Byte) → Option (List Call)
  | [] => some []
  | f :: fs =>
    match callOf f, callsOf fs with
    | some c, some cs => some (c :: cs)
    | _, _ => none

/-- A list with every later appearance of an element removed (R25). -/
def collapse : List Call → List Call
  | [] => []
  | c :: cs => c :: (collapse cs).filter (· != c)

/-! ### Sets -/

/-- The event set of a field; any of the top four bits set breaks it (R185). -/
def eventSetOf (h : Half) : Option EventSet := if h.toNat < 4096 then some (h.setWidth 12) else none

/-- Whether bit `i` of a mask is set. -/
def hasBit (b : Byte) (i : Nat) : Bool := b.getLsbD i

/-- Whether a mask has no bit at or above `n` set. -/
def maskBelow (b : Byte) (n : Nat) : Bool := b.toNat < 2 ^ n

/-! ### Bytes of replies (R185: most significant byte first) -/

/-- A number in one byte. -/
def be8 (n : Nat) : List Byte := [BitVec.ofNat 8 n]
/-- A number in two bytes. -/
def be16 (n : Nat) : List Byte := [BitVec.ofNat 8 (n / 256), BitVec.ofNat 8 n]
/-- A number in four bytes. -/
def be32 (n : Nat) : List Byte := be16 (n / 65536) ++ be16 n
/-- A signed number in two bytes, two's complement (R185). -/
def beSigned (z : Int) : List Byte := be16 (BitVec.ofInt 16 z).toNat
/-- A flag: 1 set, 0 clear (R188). -/
def beFlag (b : Bool) : List Byte := be8 b.toNat
/-- A port, 0xFF when absent (R186). -/
def bePort : Option Port → List Byte
  | some p => be8 (portNumber p)
  | none => be8 0xFF
/-- A Station Book index, 0xFF when absent (R186). -/
def beEntry : Option Nat → List Byte
  | some e => be8 e
  | none => be8 0xFF

end Sys2Proof.Machine
end

