-- ==== Sys2Proof/Machine/Ops.lean ====
section
/-! DEFINITION. The shared operations over the state: stamps, events, messages, copies, the Station Book, hand-off lists. Every
change of a copy goes through changeCopy, which carries all that a change of state brings with it (R63, R66, R67). -/
namespace Sys2Proof.Machine

/-! ### Time and counts -/

/-- A store-clock value a number of seconds later, holding at the clock's maximum (R2). -/
def later (n seconds : Nat) : Nat := min (n + seconds) Config.clockMax

/-- A counter one higher, holding at 65,535 (R141). -/
def bump (n : Nat) : Nat := min (n + 1) Config.counterMax

/-! ### Event kinds (R168) -/

/-- The place of a kind in the reporting order, 1 to 12. -/
def eventOrder : EventKind → Nat
  | .lifeFiled => 1
  | .channelLapsed => 2
  | .copyFailed => 3
  | .withdrawn => 4
  | .granted => 5
  | .localWaiting => 6
  | .openExpired => 7
  | .storeLow => 8
  | .duplicateSeen => 9
  | .checkDiffers => 10
  | .linkFault => 11
  | .recovered => 12

/-- The set that holds one kind alone. -/
def eventBit (k : EventKind) : EventSet := BitVec.twoPow 12 (eventOrder k - 1)

/-- The set of all the kinds a role can receive (the last column of the table of R168). -/
def routedSet : Role → EventSet
  | .off => 0
  | .console => 0xFEF
  | .intake => 0x469
  | .channel => 0x459

/-! ### Roles and phases -/

/-- Whether a port is a CHANNEL port. -/
def State.isChannel (s : State) (p : Port) : Bool := s.roles.get p == .channel
/-- Whether a port is a CONSOLE port. -/
def State.isConsole (s : State) (p : Port) : Bool := s.roles.get p == .console
/-- Whether a port is a CONSOLE or INTAKE port, a desk. -/
def State.isDesk (s : State) (p : Port) : Bool := s.roles.get p == .console || s.roles.get p == .intake
/-- Whether the part is in service (R179). -/
def State.inService (s : State) : Bool := s.power == .running
/-- Whether main power is present (R1, R178). -/
def State.powered (s : State) : Bool := s.power != .unpowered
/-- Whether a port's line is read: the part is in service and the port is not OFF (R165, R166). -/
def State.hears (s : State) (p : Port) : Bool := s.inService && s.roles.get p != .off

/-! ### Raising events (R169) -/

/-- Raise a kind at every port of a class: each port whose role can receive the kind takes it into its status set. -/
def State.raiseWhere (s : State) (k : EventKind) (who : Port → Bool) : State :=
  { s with status := .build fun p =>
      if who p then s.status.get p ||| (eventBit k &&& routedSet (s.roles.get p)) else s.status.get p }

/-- Raise a kind at one port. -/
def State.raiseAt (s : State) (k : EventKind) (p : Port) : State := s.raiseWhere k (· == p)
/-- Raise a kind at every CONSOLE port. -/
def State.raiseConsoles (s : State) (k : EventKind) : State := s.raiseWhere k s.isConsole
/-- Raise a kind at every port whose role can receive it. -/
def State.raiseAll (s : State) (k : EventKind) : State := s.raiseWhere k fun _ => true
/-- Raise a kind at the CONSOLE ports if a condition holds. -/
def State.raiseConsolesIf (s : State) (c : Bool) (k : EventKind) : State := if c then s.raiseConsoles k else s
/-- Raise a kind at every port that can receive it if a condition holds. -/
def State.raiseAllIf (s : State) (c : Bool) (k : EventKind) : State := if c then s.raiseAll k else s

/-! ### Copies (R62 to R64) -/

/-- Whether a copy state is non-terminal (R64). -/
def CopyState.live : CopyState → Bool
  | .waiting | .heldFor .. | .taken _ | .withdrawing _ => true
  | .delivered .. | .relayed .. | .failed | .cancelled => false

/-- The holder of a copy in this state (R63). -/
def CopyState.holder : CopyState → Option Port
  | .taken p | .withdrawing p => some p
  | _ => none

/-- Whether a copy is counted as waiting for its station: it has been filed and is not terminal (R57). -/
def Copy.live (c : Copy) : Bool := (c.state.map CopyState.live).getD false
/-- Whether a copy is terminal. -/
def Copy.terminal (c : Copy) : Bool := (c.state.map fun x => !x.live).getD false
/-- The holder of a copy. -/
def Copy.holder (c : Copy) : Option Port := c.state.bind CopyState.holder
/-- Whether a copy is a local copy (R85). -/
def Copy.isLocal (c : Copy) : Bool := c.station == 0
/-- Whether a copy is held for a port. -/
def Copy.heldFor (c : Copy) (k : Port) : Bool :=
  match c.state with
  | some (.heldFor p _) => p == k
  | _ => false
/-- Whether a copy is WAITING or HELD_FOR. -/
def Copy.idle (c : Copy) : Bool :=
  match c.state with
  | some .waiting | some (.heldFor ..) => true
  | _ => false
/-- Whether a copy is in some port's hand-off list: TAKEN or WITHDRAWING (R63). -/
def Copy.inList (c : Copy) : Bool := c.holder.isSome
/-- A copy in another state. -/
def Copy.become (c : Copy) (x : CopyState) : Copy := { c with state := some x }

/-- A TAKEN or WITHDRAWING copy whose holder gave no account of it: by expiry, by lapse or by the recovery pass it comes back
uncertain, or is given up at the attempt limit, or ends its cancellation (R69, R73, R78). Any other copy is as it was. -/
def Copy.lost (limit : Nat) (c : Copy) : Copy :=
  match c.state with
  | some (.taken _) => { c with state := some (if limit ≤ c.attempts then .failed else .waiting), uncertain := true }
  | some (.withdrawing _) => { c with state := some .cancelled, uncertain := true }
  | _ => c

/-! ### Messages (R3 to R6) -/

/-- The key of a message (R27). -/
def Message.key (m : Message) : Key := ⟨m.origin, m.serial⟩
/-- Whether a message is OPEN. -/
def Message.isOpen (m : Message) : Bool := m.phase == .opened
/-- The filing fields of a message, once it has them. -/
def Message.filing (m : Message) : Option Filing :=
  match m.phase with
  | .opened => none
  | .filed f | .closed f _ => some f
/-- Whether a message is FILED. -/
def Message.isFiled (m : Message) : Bool :=
  match m.phase with
  | .filed _ => true
  | _ => false
/-- Whether a message is CLOSED. -/
def Message.isClosed (m : Message) : Bool :=
  match m.phase with
  | .closed .. => true
  | _ => false
/-- Whether any copy of a message is FAILED. -/
def Message.hasFailed (m : Message) : Bool := m.copies.any fun c => c.state == some .failed

/-- FILED and CLOSED follow the copies: the last copy to become terminal closes the message with a closed stamp of now, a copy made
non-terminal again reopens it (R5). -/
def Message.rephase (now : Nat) (m : Message) : Message :=
  match m.phase with
  | .opened => m
  | .filed f => if m.copies.all Copy.terminal then { m with phase := .closed f now } else m
  | .closed f _ => if m.copies.all Copy.terminal then m else { m with phase := .filed f }

/-- The message that holds a local number. -/
def State.findMsg (s : State) (n : Nat) : Option Message := s.store.find? fun m => m.number == n

/-- The copy named by a local number and an addressee index. -/
def State.copyAt (s : State) (n i : Nat) : Option Copy := (s.findMsg n).bind fun m => m.copies[i]?

/-- A message changed in place. -/
def State.updMsg (s : State) (n : Nat) (f : Message → Message) : State :=
  { s with store := s.store.map fun m => if m.number == n then f m else m }

/-- A message entered at its place in rising local number. -/
def insertMsg (m : Message) : List Message → List Message
  | [] => [m]
  | x :: xs => if m.number < x.number then m :: x :: xs else x :: insertMsg m xs

/-- Every copy of every message in the store, by local number and addressee index. -/
def State.copyRefs (s : State) : List (Nat × Nat) :=
  s.store.flatMap fun m => (List.range m.copies.length).map fun i => (m.number, i)

/-- The attempt limit now set for a precedence (R69). -/
def State.limit (s : State) (p : Prec) : Nat := s.handOff.limits.get p

/-! ### The free slots and blocks (R3, R9) -/

/-- The count of free slots. -/
def State.freeSlots (s : State) : Nat := Config.slots - s.store.length
/-- The blocks that the messages in the store hold. -/
def State.heldBlocks (s : State) : List Nat := s.store.flatMap Message.chain
/-- The free blocks. -/
def State.freeBlockList (s : State) : List Nat := (List.range Config.blocks).filter fun b => !s.heldBlocks.contains b
/-- The count of free blocks: the pool less the blocks the messages hold. -/
def State.freeBlocks (s : State) : Nat := Config.blocks - (s.store.map fun m => m.chain.length).sum
/-- The blocks that a body of a length needs (R9). -/
def blocksFor (length : Nat) : Nat := (length + 31) / Config.blockBytes

/-- `n` blocks taken from a list of free ones. Which block is taken is a free value, reduced to a place in the list (R9). -/
def pickBlocks : Nat → Nat → List Nat → List Nat
  | 0, _, _ => []
  | n + 1, seed, free =>
    let at_ := Config.freeBlock seed % free.length
    free.getD at_ 0 :: pickBlocks n (seed + 1) (free.eraseIdx at_)

/-- Whether the store is low (R13). -/
def State.low (s : State) : Bool := s.freeSlots ≤ Config.lowSlots || s.freeBlocks ≤ Config.lowBlocks

/-- The store-low condition re-examined: STORE_LOW is raised at the consoles when the store has become low (R13). -/
def State.checkLow (s : State) : State :=
  { s.raiseConsolesIf (s.low && !s.prevLow) .storeLow with prevLow := s.low }

/-! ### The Station Book (R44 to R59) -/

/-- The entry in use at an index. -/
def State.station (s : State) (e : Nat) : Option Station := (s.book[e]?).join
/-- An entry changed in place. -/
def State.updStation (s : State) (e : Nat) (f : Station → Station) : State :=
  { s with book := s.book.modify e (Option.map f) }
/-- The own call, blank until it is set (R27). -/
def State.ownCall (s : State) : Call := ((s.station 0).map Station.call).getD blankCall
/-- The index of the entry that holds a call sign in a book. -/
def findCall (book : List (Option Station)) (c : Call) : Option Nat :=
  book.findIdx? fun e => (e.map fun st => st.call == c).getD false
/-- The reach grade of an entry at a port, 0 at a port that is not a CHANNEL port (R54). -/
def State.grade (s : State) (e : Nat) (p : Port) : Nat :=
  if s.isChannel p then ((s.station e).map fun st => (st.grades.get p).value).getD 0 else 0

/-- A station with the grade at a port written, last touched now (R54). -/
def Station.writeGrade (p : Port) (value now : Nat) (st : Station) : Station :=
  { st with grades := st.grades.set p ⟨value, now⟩ }

/-- Whether the station filter of a standing ask names an entry. -/
def State.askNames (s : State) (e : Nat) : Bool :=
  Port.all.any fun p => s.isChannel p && (match (s.channels.get p).state with | .asking _ (some f) => f == e | _ => false)

/-- Whether an entry is named (R48): entry 0 always; another while a copy in the store or a standing ask's filter names it. -/
def State.named (s : State) (e : Nat) : Bool :=
  e == 0 || (s.store.any fun m => m.copies.any fun c => c.station == e) || s.askNames e

/-- Whether an affinity is current at a store-clock value (R59). -/
def Affinity.current (a : Affinity) (now : Nat) : Bool := now - a.stamp ≤ Config.affinityAge

/-- A new entry as it is provided: grade 0 and last touched now at every port, no affinity, a waiting count of 0 (R49). -/
def newStation (c : Call) (k : StationKind) (now : Nat) : Station :=
  { call := c, kind := k, created := now, grades := .same ⟨0, now⟩, affinity := none, waiting := 0 }

/-- The better of two candidates for recycling: the older created stamp, then the lower index (R49). -/
def olderEntry (best : Option (Nat × Nat)) (cand : Nat × Nat) : Option (Nat × Nat) :=
  match best with
  | none => some cand
  | some b => if cand.2 < b.2 then some cand else some b

/-- The entry that is provided for a call sign no entry holds, with whether it is recycled: the lowest-numbered free entry, else the
unnamed AUTO entry of the oldest created stamp (R49). An entry in `busy` is not available. -/
def provideEntry (book : List (Option Station)) (isNamed : Nat → Bool) (busy : List Nat) : Option (Nat × Bool) :=
  match (List.range Config.entries).find? fun e => e != 0 && book[e]? == some none with
  | some e => some (e, false)
  | none =>
    let cands := (List.range Config.entries).filterMap fun e =>
      match (book[e]?).join with
      | some st => if st.kind == .auto && !isNamed e && !busy.contains e then some (e, st.created) else none
      | none => none
    (cands.foldl olderEntry none).map fun x => (x.1, true)

/-- The streak ended if it names an entry that is freed or recycled (R50). -/
def State.endStreak (s : State) (e : Nat) : State :=
  { s with streak := match s.streak with
      | some k => if k.station == e then none else some k
      | none => none }

/-- An entry written for a call sign (R49); where it is recycled, a streak that names it ends (R50). -/
def State.writeEntry (s : State) (e : Nat) (recycled : Bool) (st : Station) : State :=
  let t := if recycled then s.endStreak e else s
  { t with book := t.book.set e (some st) }

/-- A waiting count one higher or lower, or as it was (R57). -/
def Station.recount (before after : Bool) (st : Station) : Station :=
  match before, after with
  | false, true => { st with waiting := st.waiting + 1 }
  | true, false => { st with waiting := st.waiting - 1 }
  | _, _ => st

/-! ### Hand-off lists (R121) -/

/-- Whether an entry names a copy. -/
def Entry.names (n i : Nat) (e : Entry) : Bool := e.number == n && e.index == i
/-- The entry of a port's list for a copy. -/
def State.entryOf (s : State) (p : Port) (n i : Nat) : Option Entry := (s.lists.get p).find? (Entry.names n i)
/-- An entry removed from a port's list; those behind it close up. -/
def State.dropEntry (s : State) (p : Port) (n i : Nat) : State :=
  { s with lists := s.lists.set p ((s.lists.get p).filter fun e => !e.names n i) }
/-- An entry of a port's list changed in place. -/
def State.updEntry (s : State) (p : Port) (n i : Nat) (f : Entry → Entry) : State :=
  { s with lists := s.lists.set p ((s.lists.get p).map fun e => if e.names n i then f e else e) }
/-- An entry appended at the end of a port's list. -/
def State.addEntry (s : State) (p : Port) (e : Entry) : State :=
  { s with lists := s.lists.set p (s.lists.get p ++ [e]) }

/-! ### The one change of a copy -/

/-- The list effects of a change of a copy: the entry leaves its holder's list when the copy leaves TAKEN and WITHDRAWING, and is
marked when the copy becomes WITHDRAWING (R63). -/
def State.followHolder (s : State) (n i : Nat) (before after : Copy) : State :=
  match before.holder with
  | none => s
  | some j =>
    if after.holder == some j then
      if after.state == some (.withdrawing j) then s.updEntry j n i fun e => { e with withdrawing := true } else s
    else s.dropEntry j n i

/-- Change one copy. In the same event the message follows (R5), the waiting count of the station follows (R57), the holder's list
follows (R63), and COPY_FAILED is raised at the consoles when the copy enters FAILED (R70). -/
def State.changeCopy (s : State) (n i : Nat) (f : Copy → Copy) : State :=
  match s.copyAt n i with
  | none => s
  | some c =>
    let t := s.updMsg n fun m => (Message.rephase s.clock { m with copies := m.copies.set i (f c) })
    let t := t.updStation c.station (Station.recount c.live (f c).live)
    let t := t.followHolder n i c (f c)
    t.raiseConsolesIf ((f c).state == some .failed && c.state != some .failed) .copyFailed

/-- Change each of some copies in turn. -/
def State.changeCopies (s : State) (refs : List (Nat × Nat)) (f : Copy → Copy) : State :=
  refs.foldl (fun t r => t.changeCopy r.1 r.2 f) s

/-- Hand a copy to a port: it becomes TAKEN, and an entry is appended to the port's list with a deadline of now plus the hand-off time
of its precedence and no extension (R63, R109, R129, R143). -/
def State.handOver (s : State) (p : Port) (n i : Nat) (prec : Prec) : State :=
  (s.changeCopy n i fun c => c.become (.taken p)).addEntry p
    { number := n, index := i, deadline := later s.clock (s.handOff.times.get prec), extensions := 0, withdrawing := false }

/-- Every copy HELD_FOR a channel becomes WAITING (R115). -/
def State.releaseHolds (s : State) (k : Port) : State :=
  { s with store := s.store.map fun m =>
      { m with copies := m.copies.map fun c => if c.heldFor k then c.become .waiting else c } }

/-! ### Affinity holds (R112, R113) -/

/-- Whether holds may be placed for a channel and stand: a CHANNEL port in READY or ASKING under NONE or STEP (R112, R115). -/
def State.mayHold (s : State) (k : Port) : Bool :=
  s.isChannel k
    && (match (s.channels.get k).state with | .ready | .asking .. => true | .closed | .lapsed => false)
    && (s.admin.get k == .none_ || s.admin.get k == .step)

/-- The state in which a copy enters WAITING by filing, by REPORT RETURN or by REQUEUE: HELD_FOR its station's affinity port when every
condition of R112 is met, WAITING otherwise. -/
def State.entryState (s : State) (prec : Prec) (c : Copy) : CopyState :=
  match (s.station c.station).bind Station.affinity with
  | none => .waiting
  | some a =>
    if prec != .life && !c.isLocal && a.current s.clock && s.mayHold a.port && s.dispatch.window != 0
        && (c.pinned == none || c.pinned == some a.port)
    then .heldFor a.port (later s.clock s.dispatch.window)
    else .waiting

/-! ### Removing messages (R3, R15, R36) -/

/-- A message's record removed: its slot and its blocks are free in the same event. -/
def State.removeMsg (s : State) (n : Nat) : State := { s with store := s.store.filter fun m => m.number != n }

/-- A key joins the newest end of the ring, the oldest dropped first from a full one (R40). -/
def joinRing (ring : List Key) (k : Key) : List Key :=
  (if Config.ringMax ≤ ring.length then ring.drop 1 else ring) ++ [k]

/-- A message purged: its record removed, its key moved from the table to the ring, the waiting counts of its live copies' stations
lowered (R15). -/
def State.purgeMsg (s : State) (m : Message) : State :=
  let t := m.copies.foldl (fun t c => t.updStation c.station (Station.recount c.live false)) s
  { t.removeMsg m.number with dupTable := t.dupTable.erase m.key, ring := joinRing t.ring m.key }

/-- The OPEN message of a port's lodge context removed: its key leaves the table and does not enter the ring, the context is emptied
(R36). -/
def State.dropLodge (s : State) (p : Port) (m : Message) : State :=
  { s.removeMsg m.number with dupTable := s.dupTable.erase m.key, lodges := s.lodges.set p none }

end Sys2Proof.Machine
end

