-- ==== Sys2Proof/Machine/Flags.lean ====
section
/-! DEFINITION. The conditions the outputs follow: attention lines, first events, annunciators (R173 to R175). -/
namespace Sys2Proof.Machine

/-- The kinds in reporting order (R168). -/
def eventKinds : List EventKind :=
  [.lifeFiled, .channelLapsed, .copyFailed, .withdrawn, .granted, .localWaiting, .openExpired, .storeLow, .duplicateSeen,
    .checkDiffers, .linkFault, .recovered]

/-- Whether a set holds a kind. -/
def hasEvent (set : EventSet) (k : EventKind) : Bool := set.getLsbD (eventOrder k - 1)

/-- The first event of a port: the earliest kind in both its sets (R174). -/
def State.firstEvent (s : State) (p : Port) : Option EventKind :=
  eventKinds.find? (hasEvent (s.status.get p &&& s.enable.get p))

/-- Whether a port's attention line is asserted: in service, its sets have a kind in common (R173). -/
def State.attentionOf (s : State) (p : Port) : Bool :=
  s.inService && s.roles.get p != .off && (s.status.get p &&& s.enable.get p) != 0

/-- The condition of an annunciator function (R175). -/
def State.annHolds (s : State) : AnnFn → Bool
  | .off => false
  | .lifeOpen => s.store.any fun m => m.prec == .life && m.copies.any Copy.live
  | .failedHeld => s.store.any Message.hasFailed
  | .lapsedAny => Port.all.any fun p => s.isChannel p && (s.channels.get p).state == .lapsed
  | .storeLow => s.low
  | .noChannel => !Port.all.any fun p =>
      s.isChannel p && (match (s.channels.get p).state with | .ready | .asking .. => true | .closed | .lapsed => false)
  | .on => true

/-- The output levels from the state: deasserted unless the part is in service (R173, R175). -/
def State.refreshOutputs (s : State) : State :=
  { s with attention := .build s.attentionOf, annOut := s.annFns.map fun f => s.inService && s.annHolds f }

end Sys2Proof.Machine
end

