-- ==== Sys2Proof/Machine/Pairs.lean ====
section
/-! DEFINITION. Pairs: a channel and a copy that may be granted to it (R98, R99). Pairs are not stored (R100). -/
namespace Sys2Proof.Machine

/-- A copy of a message, as the arbiter and TAKE LOCAL consider it: the message, the addressee index, the copy. -/
structure Cand where
  msg   : Message
  index : Nat
  copy  : Copy
deriving DecidableEq, Repr

/-- The copies of the store that meet a condition on message and copy, with their addressee indices. -/
def State.cands (s : State) (ok : Message → Copy → Bool) : List Cand :=
  s.store.flatMap fun m => (m.copies.zipIdx.filter fun ci => ok m ci.1).map fun ci => ⟨m, ci.2, ci.1⟩

/-- The channel's side of R99: a CHANNEL port in ASKING with a count above 0, under admin mode NONE or STEP. -/
def State.openToGrants (s : State) (k : Port) : Bool :=
  s.isChannel k
    && (match (s.channels.get k).state with | .asking c _ => c != 0 | _ => false)
    && (s.admin.get k == .none_ || s.admin.get k == .step)

/-- Whether a channel's ask admits copies to a station: it has no filter, or its filter names the station (R98). -/
def State.askAdmits (s : State) (k : Port) (station : Nat) : Bool :=
  match (s.channels.get k).state with
  | .asking _ (some f) => f == station
  | .asking _ none => true
  | _ => false

/-- The copy's side of R99 for a channel. -/
def State.fits (s : State) (k : Port) (m : Message) (c : Copy) : Bool :=
  m.isFiled && !c.isLocal
    && (c.state == some .waiting || c.heldFor k)
    && s.grade c.station k != 0
    && (c.pinned == none || c.pinned == some k)
    && s.askAdmits k c.station
    && c.attempts < s.limit m.prec

/-- The copies that form a pair with a channel. -/
def State.pairsOf (s : State) (k : Port) : List Cand := if s.openToGrants k then s.cands (s.fits k) else []

/-- Whether a channel is in any pair. -/
def State.hasPair (s : State) (k : Port) : Bool := !(s.pairsOf k).isEmpty

end Sys2Proof.Machine
end

