-- ==== Sys2Proof/Machine/Ranking.lean ====
section
/-! DEFINITION. The rank of a copy as seen from a port, and the order it sets (R86 to R92). -/
namespace Sys2Proof.Machine

/-- The base of a precedence's band (R89). -/
def rankBase : Prec → Nat
  | .life => 3000
  | .priority => 2000
  | .welfare => 1000
  | .routine => 0

/-- The age in minutes of a message filed at a stamp, capped at 999 (R87). -/
def ageMinutes (now filed : Nat) : Nat := min 999 ((now - filed) / 60)

/-- The terms of a rank computation (R88, R89). -/
structure Terms where
  grade   : Nat
  age     : Nat
  aging   : Nat
  penalty : Nat
  fit     : Nat
  raw     : Int
  clamped : Bool
  rank    : Nat
deriving DecidableEq, Repr

/-- The filed stamp of a message (R4). -/
def Message.filedStamp (m : Message) : Nat := (m.filing.map Filing.filedStamp).getD 0
/-- The filing sequence of a message (R8). -/
def Message.sequence (m : Message) : Nat := (m.filing.map Filing.sequence).getD 0

/-- The computation of R87 to R89 for a copy of a message and a port, from the values standing now. -/
def State.rankTerms (s : State) (m : Message) (c : Copy) (p : Port) : Terms :=
  let grade := if c.isLocal then 0 else s.grade c.station p
  let age := ageMinutes s.clock m.filedStamp
  let aging := age * s.ranking.aging.get m.prec
  let penalty := c.attempts * s.ranking.penalty
  let fit := grade * s.ranking.fit
  let raw : Int := (aging : Int) - penalty + fit
  { grade, age, aging, penalty, fit, raw, clamped := raw < 0 || 999 < raw,
    rank := rankBase m.prec + (max 0 (min 999 raw)).toNat }

/-- The rank of a candidate for a port. -/
def State.rankOf (s : State) (p : Port) (x : Cand) : Nat := (s.rankTerms x.msg x.copy p).rank

/-- Whether one candidate at its rank stands before another at its rank: the higher rank, then the smaller filing sequence, then the
lower addressee index, then the lower local number (R91). -/
def standsBefore (rx : Nat) (x : Cand) (ry : Nat) (y : Cand) : Bool :=
  if rx != ry then ry < rx
  else if x.msg.sequence != y.msg.sequence then x.msg.sequence < y.msg.sequence
  else if x.index != y.index then x.index < y.index
  else x.msg.number < y.msg.number

/-- The first in the order of R91 among candidates that each carry the rank they are compared at. -/
def firstRanked : List (Nat × Cand) → Option (Nat × Cand)
  | [] => none
  | x :: xs =>
    match firstRanked xs with
    | none => some x
    | some y => if standsBefore y.1 y.2 x.1 x.2 then some y else some x

/-- The highest-ranked of some candidates for a port (R91). -/
def State.best (s : State) (p : Port) (xs : List Cand) : Option Cand :=
  (firstRanked (xs.map fun x => (s.rankOf p x, x))).map Prod.snd

end Sys2Proof.Machine
end

