-- ==== Sys2Proof/Machine/Records.lean ====
section
/-! DEFINITION. The records that replies carry, byte by byte (R186, R187). -/
namespace Sys2Proof.Machine

/-! ### Codes (R185) -/

/-- The code of a message's state. -/
def phaseCode : Phase → Nat
  | .opened => 0
  | .filed _ => 1
  | .closed .. => 2

/-- The code of a copy state. -/
def copyCode : CopyState → Nat
  | .waiting => 0
  | .heldFor .. => 1
  | .taken _ => 2
  | .withdrawing _ => 3
  | .delivered .. => 4
  | .relayed .. => 5
  | .failed => 6
  | .cancelled => 7

/-- The code of a copy's state, 0xFF while its message is OPEN (R186). -/
def Copy.code (c : Copy) : Nat := (c.state.map copyCode).getD 0xFF

/-- The code of a channel state. -/
def chanCode : ChanState → Nat
  | .closed => 0
  | .ready => 1
  | .asking .. => 2
  | .lapsed => 3

/-- The ask count of a channel: that of its standing ask, 0 in every state but ASKING (R98). -/
def ChanState.count : ChanState → Nat
  | .asking c _ => c
  | _ => 0

/-- The station filter of a channel's standing ask. -/
def ChanState.filter : ChanState → Option Nat
  | .asking _ f => f
  | _ => none

/-- The code of a role. -/
def roleCode : Role → Nat
  | .off => 0
  | .console => 1
  | .intake => 2
  | .channel => 3

/-- The code of a last fault. -/
def faultCode : LinkCause → Nat
  | .none_ => 0
  | .gap => 1
  | .framing => 2
  | .lineBreak => 3
  | .runt => 4
  | .length => 5
  | .overrun => 6

/-- The code of a station kind, 0 for a free entry. -/
def kindCode : Option StationKind → Nat
  | none => 0
  | some .auto => 1
  | some .set => 2

/-- The code of a tier: 0 for A, 1 for B. -/
def tierCode : Tier → Nat
  | .a => 0
  | .b => 1

/-- An event kind standing alone: its reporting order, 0 for none. -/
def eventCode (k : Option EventKind) : Nat := (k.map eventOrder).getD 0

/-- An event set in its two bytes. -/
def beEvents (e : EventSet) : List Byte := be16 e.toNat

/-! ### Grant records (R110, R186) -/

/-- The call sign of an entry as it stands. -/
def State.callAt (s : State) (e : Nat) : Call := ((s.station e).map Station.call).getD blankCall

/-- The grant record of a list entry whose message and copy are given, 22 bytes. -/
def State.grantRecord (s : State) (e : Entry) (m : Message) (c : Copy) : List Byte :=
  be16 e.number ++ be8 e.index ++ s.callAt c.station ++ be8 (precCode m.prec)
    ++ be8 (c.uncertain.toNat + 2 * c.pinned.isSome.toNat + 4 * e.withdrawing.toNat)
    ++ be8 c.attempts ++ be8 e.extensions ++ be32 e.deadline ++ be16 m.body.length ++ be16 m.wordCheck

/-- The grant record of a list entry, from the store as it stands. -/
def State.recordOf (s : State) (e : Entry) : List Byte :=
  match s.findMsg e.number, s.copyAt e.number e.index with
  | some m, some c => s.grantRecord e m c
  | _, _ => []

/-! ### Message headers (R146, R147, R186) -/

/-- The filing fields of a header: word count, flags, filed stamp, filing sequence; 0 while OPEN. -/
def filingBytes : Option Filing → List Byte
  | some f => be16 f.wordCount ++ beFlag f.checkDiffers ++ be32 f.filedStamp ++ be32 f.sequence
  | none => be16 0 ++ be8 0 ++ be32 0 ++ be32 0

/-- The closed stamp of a message, while CLOSED. -/
def Message.closedStamp (m : Message) : Option Nat :=
  match m.phase with
  | .closed _ t => some t
  | _ => none

/-- The copies a READ HEADER returns: the first index given and the one after it (R147). -/
def Message.twoCopies (m : Message) (first : Nat) : List (Copy × Nat) := (m.copies.zipIdx.drop first).take 2

/-- The 46 bytes of message fields of a READ HEADER reply. -/
def State.headerBytes (s : State) (m : Message) (first : Nat) : List Byte :=
  be32 s.clock ++ be16 m.number ++ be8 (phaseCode m.phase) ++ be8 (precCode m.prec) ++ m.origin ++ be16 m.serial
    ++ be16 m.wordCheck ++ be8 (portNumber m.lodgedAt) ++ be16 m.body.length ++ be8 m.chain.length ++ be32 m.openStamp
    ++ be8 m.copies.length ++ be8 (m.filing.isSome.toNat + 2 * m.closedStamp.isSome.toNat)
    ++ filingBytes m.filing ++ be32 (m.closedStamp.getD 0)
    ++ be8 (if first + 2 < m.copies.length then first + 2 else 0xFF) ++ be8 (m.twoCopies first).length

/-- The hold, outcome and relay fields of a copy record, by state: hold port and end, outcome port and stamp, relay call. -/
def copyStateBytes : Option CopyState → List Byte
  | some (.heldFor p t) => be8 (portNumber p) ++ be32 t ++ be8 0xFF ++ be32 0 ++ blankCall
  | some (.delivered p t _) => be8 0xFF ++ be32 0 ++ be8 (portNumber p) ++ be32 t ++ blankCall
  | some (.relayed p t _ r) => be8 0xFF ++ be32 0 ++ be8 (portNumber p) ++ be32 t ++ r
  | _ => be8 0xFF ++ be32 0 ++ be8 0xFF ++ be32 0 ++ blankCall

/-- Whether a copy was delivered or relayed after a cancel (R74). -/
def CopyState.afterCancel : CopyState → Bool
  | .delivered _ _ b | .relayed _ _ b _ => b
  | _ => false

/-- The presence marks that a copy state gives: hold 4, outcome 8, relay call 16. -/
def CopyState.presence : CopyState → Nat
  | .heldFor .. => 4
  | .delivered .. => 8
  | .relayed .. => 24
  | _ => 0

/-- The 32 bytes of a copy record. The attempts, flags and presence of a copy of an OPEN message read 0 (R186). -/
def State.copyBytes (s : State) (c : Copy) (index : Nat) : List Byte :=
  be8 index ++ be8 c.station ++ s.callAt c.station ++ be8 c.code ++ be8 c.attempts
    ++ be8 (c.uncertain.toNat + 2 * ((c.state.map CopyState.afterCancel).getD false).toNat)
    ++ be8 (c.holder.isSome.toNat + 2 * c.pinned.isSome.toNat + (c.state.map CopyState.presence).getD 0)
    ++ bePort c.holder ++ bePort c.pinned ++ copyStateBytes c.state

/-! ### Station records and STATUS (R187) -/

/-- The grades of a station, for P0 to P5 in turn: grade and last touched. -/
def gradesBytes (g : PerPort Grade) : List Byte := g.toList.flatMap fun x => be8 x.value ++ be32 x.touched

/-- The station record of an entry in use, 50 bytes. -/
def State.stationBytes (s : State) (e : Nat) (st : Station) : List Byte :=
  be8 e ++ st.call ++ be8 (kindCode (some st.kind)) ++ be32 st.created ++ gradesBytes st.grades
    ++ be8 (st.affinity.isSome.toNat + 2 * ((st.affinity.map fun a => a.current s.clock).getD false).toNat + 4 * (s.named e).toNat)
    ++ bePort (st.affinity.map Affinity.port) ++ be32 ((st.affinity.map Affinity.stamp).getD 0) ++ be8 st.waiting

/-- The lodge context in a STATUS reply: filled, local number, open deadline. -/
def lodgeBytes : Option Lodge → List Byte
  | some l => be8 1 ++ be16 l.number ++ be32 l.deadline
  | none => be8 0 ++ be16 0 ++ be32 0

/-- The channel context in a STATUS reply, marked absent for a port that is not a CHANNEL port. -/
def State.channelBytes (s : State) (p : Port) : List Byte :=
  if s.isChannel p then
    let c := s.channels.get p
    be8 1 ++ be8 (chanCode c.state) ++ be8 (adminCode (s.admin.get p)) ++ be8 c.lapseCount ++ be8 c.state.count
      ++ beEntry c.state.filter ++ be8 (tierCode (s.dispatch.tiers.get p)) ++ be8 (s.dispatch.runs.get p)
  else be8 0 ++ List.replicate 7 0xFF

/-- The 36 bytes of a STATUS reply. -/
def State.statusBytes (s : State) (p : Port) : List Byte :=
  be8 (portNumber p) ++ be8 (roleCode (s.roles.get p)) ++ be32 s.clock ++ be8 (eventCode (s.firstEvent p))
    ++ beEvents (s.status.get p) ++ beEvents (s.enable.get p) ++ be8 (faultCode (s.units.get p).lastFault)
    ++ be8 s.freeSlots ++ be16 s.freeBlocks ++ be8 (s.low.toNat + 2 * s.storeSet.autoPurge.toNat)
    ++ be16 s.storeSet.openTimeout ++ lodgeBytes (s.lodges.get p) ++ be8 (s.lists.get p).length
    ++ be8 (((s.station 0).map Station.waiting).getD 0) ++ be8 s.recovered ++ s.channelBytes p

/-- The seven counters of a port, in the order of R152. -/
def countersBytes (c : Counters) : List Byte :=
  be16 c.delivered ++ be16 c.relayed ++ be16 c.noContact ++ be16 c.returned ++ be16 c.expiries ++ be16 c.lapses
    ++ be16 c.discarded

end Sys2Proof.Machine
end

