-- ==== Sys2Proof/Machine/Service.lean ====
section
/-! DEFINITION. How a request is served at its port: the frame taken into service or held, the three tests of decoding, the reply
built (R162 to R164), and what closes every event of the part: the ASK replies that fall due and the outputs. -/
namespace Sys2Proof.Machine

/-- The twenty result codes (section 9.8). -/
inductive Result where
  | ok | badKind | badField | notRole | noSuch | state | full | bookFull | duplicate | inUse | barred | lapsed | notHeld
  | lateAccepted | already | limit | tooLong | noOpen | none_ | listNotEmpty
deriving DecidableEq, Repr

/-- The value of a result code (R185). -/
def resultCode : Result → Byte
  | .ok => 0x00
  | .badKind => 0x01
  | .badField => 0x02
  | .notRole => 0x03
  | .noSuch => 0x04
  | .state => 0x05
  | .full => 0x06
  | .bookFull => 0x07
  | .duplicate => 0x08
  | .inUse => 0x09
  | .barred => 0x0A
  | .lapsed => 0x0B
  | .notHeld => 0x0C
  | .lateAccepted => 0x0D
  | .already => 0x0E
  | .limit => 0x0F
  | .tooLong => 0x10
  | .noOpen => 0x11
  | .none_ => 0x12
  | .listNotEmpty => 0x13

/-- What an owning block answers: a result with its fields, or, for a served ASK, the ask whose reply is built once its port is in no
pair (R102). -/
inductive Answer where
  | reply (result : Result) (fields : List Byte)
  | askStands (clamped stood : Nat) (filter : Option Nat)
deriving DecidableEq, Repr

/-- The reply frame to a request frame: start mark, length, the kind with its top bit set, the tag, the result code, the fields
(R164, R184). -/
def replyFrame (f : Frame) (r : Result) (fields : List Byte) : List Byte :=
  Config.startMark :: BitVec.ofNat 8 (3 + fields.length) :: (f.kind ||| 0x80) :: f.tag :: resultCode r :: fields

/-- The roles that may send a request, by its kind (the first table of R163). -/
def mayUse (r : Role) (kind : Byte) : Bool :=
  match r with
  | .off => false
  | .channel => kind.toNat < 0x28
  | .console => kind.toNat < 0x20 || 0x28 ≤ kind.toNat
  | .intake => kind.toNat < 0x20 || kind.toNat == 0x28

/-- The three tests of decoding, and the owning block's service of a frame that passes them (R163). -/
def State.decodeTests (s : State) (p : Port) (f : Frame) (serve : State → State × Answer) : State × Answer :=
  if !isRequestKind f.kind then (s, .reply .badKind [])
  else if !mayUse (s.roles.get p) f.kind then (s, .reply .notRole [])
  else if !fieldLengthOk f.kind f.fields.length then (s, .reply .badField [])
  else serve s

/-- A Port Unit changed in place. -/
def State.updUnit (s : State) (p : Port) (f : PortUnit → PortUnit) : State := { s with units := s.units.set p (f (s.units.get p)) }

/-- The request in service of a port. -/
def State.serviceOf (s : State) (p : Port) : Option Service := (s.units.get p).service

/-- A port's counters changed in place. -/
def State.updCounters (s : State) (p : Port) (f : Counters → Counters) : State :=
  { s with counters := s.counters.set p (f (s.counters.get p)) }

/-- A frame discarded with a cause: LINK_FAULT is raised at the port, the frames-discarded counter goes up, the last fault becomes the
cause (R160, R162, R167). -/
def State.linkFault (s : State) (p : Port) (cause : LinkCause) : State :=
  ((s.raiseAt .linkFault p).updCounters p fun c => { c with discarded := bump c.discarded }).updUnit p
    fun u => { u with lastFault := cause }

/-- The service that an answer puts the request into. -/
def serviceFor (f : Frame) : Answer → Service
  | .reply r fields => .replying f (replyFrame f r fields) 0
  | .askStands clamped stood filter => .asking f clamped stood filter []

/-- A frame becomes the request in service of its port: it is decoded and served, and its reply is built (R162, R163). -/
def State.intoService (s : State) (p : Port) (f : Frame) (serve : State → State × Answer) : State :=
  let r := s.decodeTests p f serve
  r.1.updUnit p fun u => { u with service := some (serviceFor f r.2) }

/-- A complete frame arrives at a port that is heard: into service, held, or overrun (R162). -/
def State.arrive (s : State) (p : Port) (f : Frame) (serve : State → State × Answer) : State :=
  match (s.units.get p).service, (s.units.get p).held with
  | none, _ => s.intoService p f serve
  | some _, none => s.updUnit p fun u => { u with held := some f }
  | some _, some _ => s.linkFault p .overrun

/-- The fields of an ASK reply over its grant records (R186). -/
def askFields (clamped stood : Nat) (filter : Option Nat) (records : List (List Byte)) : List Byte :=
  be8 clamped ++ be8 stood ++ beEntry filter ++ be8 records.length ++ records.flatten

/-- The service of a port once an event is over: an ASK that waits has its reply built if the port is in no pair, and any other service is
as it was (R102). Every field is filled from the state as it stands then (R186), which holds the record of each grant that R102 says the reply carries,
showing the values at that grant, as the text under R110 says; DEDUCED: that the two are read so together (log, entry 6). DEDUCED: the filter byte is the filter of the ask that the request stood, also where grants
have used the ask up, so that its filter has ended on the channel (log, entry 22). -/
def State.closeAsk (s : State) (p : Port) : Option Service → Option Service
  | some (.asking f clamped stood filter records) =>
    if s.hasPair p then some (.asking f clamped stood filter records)
    else some (.replying f (replyFrame f .ok (askFields clamped stood filter records)) 0)
  | x => x

/-- The ASK reply of one port built, if it falls due (R102). -/
def State.buildAskReply (s : State) (p : Port) : State := s.updUnit p fun u => { u with service := s.closeAsk p u.service }

/-- What closes every event: the ASK replies that fall due are built (R102), and the outputs take their levels (R173, R175). -/
def State.finish (s : State) : State := (Port.all.foldl State.buildAskReply s).refreshOutputs

/-- The outcome of a request command: its frame arrives whole at its port. A port that is not heard takes no notice (R165, R166).
DESIGN CHOICE: log, entry 2. -/
def submit (s : State) (p : Port) (f : Frame) (serve : State → State × Answer) : Host.Outcome State Fault Refusal :=
  if s.hears p then .next (s.arrive p f serve).finish else .next s

/-- A request refused or answered without a change of state. -/
def State.answer (s : State) (r : Result) (fields : List Byte := []) : State × Answer := (s, .reply r fields)

/-- The outcome of an event of the part's own that is taken only in service. DESIGN CHOICE: when it is taken is the queue's order (log, entry 5). -/
def event (s : State) (f : State → State) : Host.Outcome State Fault Refusal :=
  if s.inService then .next (f s).finish else .next s

end Sys2Proof.Machine
end

