-- ==== Sys2Proof/Machine/HandOff.lean ====
section
/-! DEFINITION. Hand-offs: TAKE LOCAL, EXTEND, REPORT, the deadline expiry and the lapse (R129 to R138, R142, R143). -/
namespace Sys2Proof.Machine

/-! ### Effects of a report or an expiry on a port -/

/-- A channel context changed in place. -/
def State.updChannel (s : State) (p : Port) (f : Channel → Channel) : State :=
  { s with channels := s.channels.set p (f (s.channels.get p)) }

/-- The own-list effects of a report on a CHANNEL port: its lapse count becomes 0, and under STEP it passes to HOLD, which ends the holds
for it (R128, R133, R137). -/
def State.accountGiven (s : State) (p : Port) : State :=
  if s.isChannel p then
    let t := s.updChannel p fun c => { c with lapseCount := 0 }
    if t.admin.get p == .step then { t.releaseHolds p with admin := t.admin.set p .hold } else t
  else s

/-- A delivery reported from a port for a station: from a CHANNEL port for a copy that is not local, the grade there rises to at least 2,
last touched now, and the affinity becomes that port (R56). -/
def State.creditDelivery (s : State) (p : Port) (e : Nat) : State :=
  if s.isChannel p && e != 0 then
    s.updStation e fun st =>
      { st.writeGrade p (max 2 (st.grades.get p).value) s.clock with affinity := some ⟨p, s.clock⟩ }
  else s

/-- A failed contact reported from a port for a station: from a CHANNEL port for a copy that is not local, the grade there falls by 1,
last touched now (R56). -/
def State.debitContact (s : State) (p : Port) (e : Nat) : State :=
  if s.isChannel p && e != 0 then s.updStation e fun st => st.writeGrade p ((st.grades.get p).value - 1) s.clock else s

/-- What a reported outcome does to the Station Book (R56). -/
def State.bookOutcome (s : State) (p : Port) (e : Nat) : ReportOutcome → State
  | .delivered => s.creditDelivery p e
  | .noContact => s.debitContact p e
  | .relayed | .returned => s

/-- The counter of a reported outcome (R141). -/
def countOutcome : ReportOutcome → Counters → Counters
  | .delivered, c => { c with delivered := bump c.delivered }
  | .relayed, c => { c with relayed := bump c.relayed }
  | .noContact, c => { c with noContact := bump c.noContact }
  | .returned, c => { c with returned := bump c.returned }

/-- LOCAL_WAITING raised at every CONSOLE and INTAKE port when a local copy has come back to WAITING (R85). -/
def State.localBack (s : State) (n i : Nat) : State :=
  match s.copyAt n i with
  | some c => s.raiseAllIf (c.isLocal && c.state == some .waiting) .localWaiting
  | none => s

/-! ### TAKE LOCAL (R142, R143) -/

/-- The local copies of FILED messages in WAITING. -/
def State.localCands (s : State) : List Cand :=
  s.cands fun m c => m.isFiled && c.isLocal && c.state == some .waiting

def serveTakeLocal (p : Port) (s : State) : State × Answer :=
  if Config.listMax ≤ (s.lists.get p).length then s.answer .full (be8 (s.lists.get p).length)
  else
    match s.best p s.localCands with
    | none => s.answer .none_
    | some x =>
      let t := s.handOver p x.msg.number x.index x.msg.prec
      t.answer .ok (((t.entryOf p x.msg.number x.index).map t.recordOf).getD [])

def execTakeLocal (p : Port) (tag : Byte) (s : State) : Host.Outcome State Fault Refusal :=
  submit s p ⟨0x28, tag, []⟩ (serveTakeLocal p)

/-! ### EXTEND (R129, R130) -/

def serveExtend (p : Port) (number : Half) (index : Byte) (s : State) : State × Answer :=
  match numberOf number, indexOf index with
  | some n, some i =>
    match s.findMsg n with
    | none => s.answer .noSuch
    | some m =>
      if m.copies.length ≤ i || m.isOpen then s.answer .noSuch
      else
        match s.entryOf p n i with
        | none => s.answer .notHeld
        | some e =>
          if e.withdrawing then s.answer .state
          else if 2 ≤ e.extensions then s.answer .limit
          else
            let deadline := later s.clock (s.handOff.times.get m.prec)
            (s.updEntry p n i fun x => { x with deadline := deadline, extensions := x.extensions + 1 }).answer .ok
              (be32 deadline ++ be8 (e.extensions + 1))
  | _, _ => s.answer .badField

def execExtend (p : Port) (tag : Byte) (number : Half) (index : Byte) (s : State) : Host.Outcome State Fault Refusal :=
  submit s p ⟨0x19, tag, [hiByte number, loByte number, index]⟩ (serveExtend p number index)

/-! ### REPORT (R132 to R135) -/

/-- The copy as the holder's report of a TAKEN entry leaves it (R133). The mode and the affinity that R112 reads are those of `s`. DEDUCED:
the attempts hold at 15, the end of their range (log, entry 17). -/
def State.takenAfter (s : State) (p : Port) (m : Message) (o : ReportOutcome) (relay : Call) (c : Copy) : Copy :=
  match o with
  | .delivered => { c with state := some (.delivered p s.clock false), uncertain := false }
  | .relayed => { c with state := some (.relayed p s.clock false relay), uncertain := false }
  | .noContact =>
    let a := min 15 (c.attempts + 1)
    { c with attempts := a, state := some (if s.limit m.prec ≤ a then .failed else .waiting) }
  | .returned => c.become (if s.limit m.prec ≤ c.attempts then .failed else s.entryState m.prec c)

/-- The copy as the holder's report of a withdrawing entry leaves it (R134). -/
def State.withdrawnAfter (s : State) (p : Port) (o : ReportOutcome) (c : Copy) : Copy :=
  match o with
  | .delivered => { c with state := some (.delivered p s.clock true), uncertain := false }
  | .relayed | .noContact | .returned => c.become .cancelled

/-- The fields of the reply to a served report: the copy's state, attempts and uncertain flag after it (R132). DEDUCED: the
third field is the uncertain flag, as the rule says, where an example calls it flags (log, entry 12). -/
def State.reportFields (s : State) (n i : Nat) : List Byte :=
  match s.copyAt n i with
  | some c => be8 c.code ++ be8 c.attempts ++ beFlag c.uncertain
  | none => []

/-- The lapse count and admin mode of a port after an own-list report; a port without a channel context cannot give them (R132, R188).
DEDUCED: each reads 0xFF then (log, entry 13). -/
def State.accountFields (s : State) (p : Port) : List Byte :=
  if s.isChannel p then be8 (s.channels.get p).lapseCount ++ be8 (adminCode (s.admin.get p)) else be8 0xFF ++ be8 0xFF

/-- A report of an entry of the port's own list served (R133, R134). DEDUCED: the entry's withdrawing mark tells the two rules apart (log, entry
18). -/
def State.ownReport (s : State) (p : Port) (n i : Nat) (m : Message) (c : Copy) (e : Entry) (o : ReportOutcome) (relay : Call) : State :=
  let t := s.accountGiven p
  let t := (t.changeCopy n i (if e.withdrawing then t.withdrawnAfter p o else t.takenAfter p m o relay)).dropEntry p n i
  let t := t.bookOutcome p c.station o
  let t := t.updCounters p (countOutcome o)
  if o == .returned then t.localBack n i else t

/-- The copy as a late report leaves it (R135). -/
def State.lateAfter (s : State) (p : Port) (o : ReportOutcome) (relay : Call) (c : Copy) : Copy :=
  let after := match c.state with
    | some (.withdrawing _) => true
    | _ => false
  { c with state := some (if o == .relayed then .relayed p s.clock after relay else .delivered p s.clock after), uncertain := false }

/-- A late report served: the copy takes its outcome, and a port that held it is told (R135). -/
def State.lateReport (s : State) (p : Port) (n i : Nat) (c : Copy) (o : ReportOutcome) (relay : Call) : State :=
  let t := s.changeCopy n i (s.lateAfter p o relay)
  let t := match c.holder with
    | some j => t.raiseAt .withdrawn j
    | none => t
  (t.bookOutcome p c.station o).updCounters p (countOutcome o)

/-- Whether a port's role is the one a late report on a copy needs (R132, test 5). -/
def State.lateRole (s : State) (p : Port) (c : Copy) : Bool := if c.isLocal then s.isDesk p else s.isChannel p

/-- Tests 3 to 8 of R132, for a copy that exists. -/
def State.reportOn (s : State) (p : Port) (n i : Nat) (m : Message) (c : Copy) (o : ReportOutcome) (relay : Call) : State × Answer :=
  if c.isLocal && (o == .relayed || o == .noContact) then s.answer .badField
  else
    match s.entryOf p n i with
    | some e =>
      let t := s.ownReport p n i m c e o relay
      t.answer .ok (t.reportFields n i ++ t.accountFields p)
    | none =>
      if !s.lateRole p c then s.answer .notRole
      else if o == .noContact || o == .returned then s.answer .notHeld
      else if c.terminal then s.answer .already
      else
        let t := s.lateReport p n i c o relay
        t.answer .lateAccepted (t.reportFields n i)

def serveReport (p : Port) (number : Half) (index outcome : Byte) (relay : List Byte) (s : State) : State × Answer :=
  match numberOf number, indexOf index, outcomeOf outcome with
  | some n, some i, some o =>
    if o == .relayed && (callOf relay).isNone then s.answer .badField
    else
      match s.findMsg n with
      | none => s.answer .noSuch
      | some m =>
        match m.copies[i]? with
        | none => s.answer .noSuch
        | some c => if m.isOpen then s.answer .noSuch else s.reportOn p n i m c o ((callOf relay).getD blankCall)
  | _, _, _ => s.answer .badField

def execReport (p : Port) (tag : Byte) (number : Half) (index outcome : Byte) (relay : List Byte) (s : State) :
    Host.Outcome State Fault Refusal :=
  submit s p ⟨0x18, tag, hiByte number :: loByte number :: index :: outcome :: relay⟩ (serveReport p number index outcome relay)

/-! ### Deadline expiry and lapse (R131, R137, R138) -/

/-- A copy whose entry's deadline passed, or whose holder lapsed, comes back (R131, R138). -/
def State.loseCopy (s : State) (n i : Nat) : State :=
  match s.findMsg n with
  | some m => s.changeCopy n i (Copy.lost (s.limit m.prec))
  | none => s

/-- A channel lapses: it is LAPSED and its ask ends, every entry still in its list is returned, oldest first, its holds end, the lapse is
counted and CHANNEL_LAPSED raised at the consoles (R138). -/
def State.lapse (s : State) (p : Port) : State :=
  let t := s.updChannel p fun c => { c with state := .lapsed }
  let t := (t.lists.get p).foldl (fun u e => u.loseCopy e.number e.index) t
  let t := { t with lists := t.lists.set p [] }
  ((t.releaseHolds p).updCounters p fun c => { c with lapses := bump c.lapses }).raiseConsoles .channelLapsed

/-- A CHANNEL port's lapse count goes up by 1, holding at 7, and at or above the lapse limit the channel lapses (R137). -/
def State.countLapse (s : State) (p : Port) : State :=
  if s.isChannel p then
    let count := min 7 ((s.channels.get p).lapseCount + 1)
    let t := s.updChannel p fun c => { c with lapseCount := count }
    if s.handOff.lapseLimit ≤ count then t.lapse p else t
  else s

/-- The deadline of an entry taken, if the entry is still in the list and the store clock has reached it (R65, R131). -/
def State.expireEntry (s : State) (p : Port) (n i : Nat) : State :=
  match s.entryOf p n i with
  | none => s
  | some e =>
    if e.deadline ≤ s.clock then
      let t := (s.loseCopy n i).dropEntry p n i
      let t := (t.raiseAt .withdrawn p).updCounters p fun c => { c with expiries := bump c.expiries }
      (t.localBack n i).countLapse p
    else s

def execDeadlineExpiry (p : Port) (n i : Nat) (s : State) : Host.Outcome State Fault Refusal :=
  event s fun t => t.expireEntry p n i

end Sys2Proof.Machine
end

