-- ==== Sys2Proof/Machine/Channels.lean ====
section
/-! DEFINITION. The channel requests: CHANNEL OPEN, CHANNEL CLOSE, ASK, WITHDRAW ASK, HEARD (R55, R122 to R126). -/
namespace Sys2Proof.Machine

/-- A channel put into another state, its lapse count kept. -/
def State.setChan (s : State) (p : Port) (x : ChanState) : State := s.updChannel p fun c => { c with state := x }

/-! ### CHANNEL OPEN (R122) -/

def serveChannelOpen (p : Port) (s : State) : State × Answer :=
  match (s.channels.get p).state with
  | .closed =>
    let t := s.updChannel p fun _ => ⟨.ready, 0⟩
    t.answer .ok (be8 (adminCode (t.admin.get p)))
  | .lapsed => s.answer .lapsed
  | .ready | .asking .. => s.answer .state

def execChannelOpen (p : Port) (tag : Byte) (s : State) : Host.Outcome State Fault Refusal :=
  submit s p ⟨0x20, tag, []⟩ (serveChannelOpen p)

/-! ### CHANNEL CLOSE (R123) -/

def serveChannelClose (p : Port) (s : State) : State × Answer :=
  match (s.channels.get p).state with
  | .ready | .asking .. =>
    if (s.lists.get p).isEmpty then ((s.setChan p .closed).releaseHolds p).answer .ok
    else s.answer .listNotEmpty (be8 (s.lists.get p).length)
  | .closed | .lapsed => s.answer .state

def execChannelClose (p : Port) (tag : Byte) (s : State) : Host.Outcome State Fault Refusal :=
  submit s p ⟨0x21, tag, []⟩ (serveChannelClose p)

/-! ### ASK (R124, R125) -/

/-- The station filter of an ASK: absent for a blank field, or the entry that holds its call sign; a refusal otherwise. -/
inductive FilterTest where
  | noFilter
  | entry (e : Nat)
  | badField
  | own
  | unknown
deriving DecidableEq, Repr

/-- A filter field tested (R124, tests 1, 4 and 5). -/
def State.filterTest (s : State) (field : List Byte) : FilterTest :=
  if isBlankCall field then .noFilter
  else
    match callOf field with
    | none => .badField
    | some c =>
      if c == s.ownCall then .own
      else
        match findCall s.book c with
        | some e => .entry e
        | none => .unknown

/-- An ASK that has passed its tests: the count that stands is the clamped count or the room in the list, whichever is smaller (R125).
DEDUCED: where no count stands the reply names no filter (log, entry 10). -/
def State.standAsk (s : State) (p : Port) (count : Byte) (filter : Option Nat) : State × Answer :=
  let clamped := clamp 1 4 count.toNat
  let stood := min clamped (Config.listMax - (s.lists.get p).length)
  if stood = 0 then (s.setChan p .ready, .askStands clamped 0 none)
  else (s.setChan p (.asking stood filter), .askStands clamped stood filter)

def serveAsk (p : Port) (count : Byte) (filter : List Byte) (s : State) : State × Answer :=
  let f := s.filterTest filter
  if f == .badField then s.answer .badField
  else
    match (s.channels.get p).state with
    | .closed | .lapsed => s.answer .state
    | .ready | .asking .. =>
      if s.admin.get p == .bar then s.answer .barred
      else
        match f with
        | .own => s.answer .state
        | .unknown => s.answer .noSuch
        | .entry e => s.standAsk p count (some e)
        | .noFilter | .badField => s.standAsk p count none

def execAsk (p : Port) (tag count : Byte) (filter : List Byte) (s : State) : Host.Outcome State Fault Refusal :=
  submit s p ⟨0x22, tag, count :: filter⟩ (serveAsk p count filter)

/-! ### WITHDRAW ASK (R126) -/

def serveWithdrawAsk (p : Port) (s : State) : State × Answer :=
  match (s.channels.get p).state with
  | .asking c _ => (s.setChan p .ready).answer .ok (be8 c)
  | .ready => s.answer .ok (be8 0)
  | .closed | .lapsed => s.answer .state

def execWithdrawAsk (p : Port) (tag : Byte) (s : State) : Host.Outcome State Fault Refusal :=
  submit s p ⟨0x23, tag, []⟩ (serveWithdrawAsk p)

/-! ### HEARD (R55) -/

/-- The entry for a call sign, provided if no entry holds it: the state with the entry, its index, and whether it was made. None is
BOOK_FULL (R49). -/
def State.entryFor (s : State) (c : Call) (k : StationKind) : Option (State × Nat × Bool) :=
  match findCall s.book c with
  | some e => some (s, e, false)
  | none =>
    match provideEntry s.book s.named [] with
    | some (e, recycled) => some (s.writeEntry e recycled (newStation c k s.clock), e, true)
    | none => none

def serveHeard (p : Port) (field : List Byte) (grade : Byte) (s : State) : State × Answer :=
  match callOf field with
  | none => s.answer .badField
  | some c =>
    if c == s.ownCall then s.answer .state
    else
      match s.entryFor c .auto with
      | none => s.answer .bookFull
      | some (t, e, made) =>
        let g := min 3 grade.toNat
        (t.updStation e fun st => st.writeGrade p g s.clock).answer .ok (be8 e ++ be8 g ++ beFlag made)

def execHeard (p : Port) (tag : Byte) (call : List Byte) (grade : Byte) (s : State) : Host.Outcome State Fault Refusal :=
  submit s p ⟨0x24, tag, call ++ [grade]⟩ (serveHeard p call grade)

end Sys2Proof.Machine
end

