-- ==== Sys2Proof/Machine/Console.lean ====
section
/-! DEFINITION. The console requests that set the station's policy: the Station Book, the settings, the channels, the store
(R14, R18 to R21, R46, R51, R52, R93, R117, R127, R139 to R141). -/
namespace Sys2Proof.Machine

/-! ### SET OWN CALL (R46) -/

def serveSetOwnCall (field : List Byte) (s : State) : State × Answer :=
  match callOf field with
  | none => s.answer .badField
  | some c =>
    match findCall s.book c with
    | some (e + 1) => s.answer .state (be8 (e + 1))
    | some 0 | none => (s.updStation 0 fun st => { st with call := c }).answer .ok c

def execSetOwnCall (p : Port) (tag : Byte) (call : List Byte) (s : State) : Host.Outcome State Fault Refusal :=
  submit s p ⟨0x30, tag, call⟩ (serveSetOwnCall call)

/-! ### SET STATION (R51) -/

/-- The grades of a SET STATION written: those of the CHANNEL ports in the set, clamped to 3, last touched now. -/
def State.writeGrades (s : State) (ports : Byte) (grades : PerPort Byte) (st : Station) : Station :=
  { st with grades := .build fun p =>
      if hasBit ports (portNumber p) && s.isChannel p then ⟨min 3 (grades.get p).toNat, s.clock⟩ else st.grades.get p }

/-- The station as a SET STATION leaves it: kind SET, grades written, affinity removed if the flag is set. -/
def State.setEntry (s : State) (ports : Byte) (grades : PerPort Byte) (clear : Byte) (st : Station) : Station :=
  let st := s.writeGrades ports grades st
  { st with kind := .set, affinity := if clear.toNat = 0 then st.affinity else none }

/-- SET STATION. DEDUCED: the former kind of a recycled entry is the AUTO of the station it held (log, entry 21). -/
def serveSetStation (field : List Byte) (ports : Byte) (grades : PerPort Byte) (clear : Byte) (s : State) : State × Answer :=
  match callOf field with
  | none => s.answer .badField
  | some c =>
    if !maskBelow ports 6 then s.answer .badField
    else if c == s.ownCall then s.answer .state
    else
      match s.entryFor c .set with
      | none => s.answer .bookFull
      | some (t, e, _) =>
        let former := (s.station e).map Station.kind
        let u := t.updStation e (s.setEntry ports grades clear)
        match u.station e with
        | none => u.answer .ok
        | some st =>
          u.answer .ok (be8 e ++ be8 (kindCode former) ++ st.grades.toList.flatMap (fun g => be8 g.value) ++ beFlag st.affinity.isSome)

def execSetStation (p : Port) (tag : Byte) (call : List Byte) (ports : Byte) (grades : PerPort Byte) (clear : Byte) (s : State) :
    Host.Outcome State Fault Refusal :=
  submit s p ⟨0x31, tag, call ++ [ports, grades.p0, grades.p1, grades.p2, grades.p3, grades.p4, grades.p5, clear]⟩
    (serveSetStation call ports grades clear)

/-! ### REMOVE STATION (R52) -/

def serveRemoveStation (field : List Byte) (s : State) : State × Answer :=
  match callOf field with
  | none => s.answer .badField
  | some c =>
    match findCall s.book c with
    | none => s.answer .noSuch
    | some e =>
      if e == 0 then s.answer .state
      else if s.named e then s.answer .inUse (be8 (((s.station e).map Station.waiting).getD 0))
      else
        let t := s.endStreak e
        ({ t with book := t.book.set e none }).answer .ok (be8 e)

def execRemoveStation (p : Port) (tag : Byte) (call : List Byte) (s : State) : Host.Outcome State Fault Refusal :=
  submit s p ⟨0x32, tag, call⟩ (serveRemoveStation call)

/-! ### SET RANKING (R93) -/

/-- The settings a SET RANKING takes, after clamping. -/
def rankingTaken (life priority welfare routine penalty fit : Byte) : RankSettings :=
  { aging := ⟨min 15 life.toNat, min 15 priority.toNat, min 15 welfare.toNat, min 15 routine.toNat⟩
    penalty := min 255 penalty.toNat, fit := min 100 fit.toNat }

def serveSetRanking (life priority welfare routine penalty fit : Byte) (s : State) : State × Answer :=
  let r := rankingTaken life priority welfare routine penalty fit
  ({ s with ranking := r }).answer .ok
    (be8 r.aging.life ++ be8 r.aging.priority ++ be8 r.aging.welfare ++ be8 r.aging.routine ++ be8 r.penalty ++ be8 r.fit)

def execSetRanking (p : Port) (tag life priority welfare routine penalty fit : Byte) (s : State) : Host.Outcome State Fault Refusal :=
  submit s p ⟨0x33, tag, [life, priority, welfare, routine, penalty, fit]⟩
    (serveSetRanking life priority welfare routine penalty fit)

/-! ### SET DISPATCH (R117, R118) -/

/-- The settings a SET DISPATCH takes, after clamping (R117). -/
def dispatchTaken (tiers runs : PerPort Byte) (window : Half) (decay : Byte) : DispatchSettings :=
  { tiers := .build fun p => tierOf (tiers.get p), runs := .build fun p => clamp 1 8 (runs.get p).toNat
    window := min 600 window.toNat, decay := min 240 decay.toNat }

/-- Whether the decay deadline of a grade has been reached: a grade above 0 under a decay period of 1 minute or more (R58). -/
def decayDue (now period : Nat) (g : Grade) : Bool := g.value != 0 && period != 0 && later g.touched (period * 60) ≤ now

/-- A grade one lower, last touched now (R58). -/
def decayed (now : Nat) (g : Grade) : Grade := ⟨g.value - 1, now⟩

/-- Every grade at a CHANNEL port whose decay deadline under a period has been reached falls by 1 (R58). -/
def State.decayAll (s : State) (period : Nat) : State :=
  { s with book := s.book.map (Option.map fun st =>
      { st with grades := .build fun p =>
          if s.isChannel p && decayDue s.clock period (st.grades.get p) then decayed s.clock (st.grades.get p) else st.grades.get p }) }

/-- The dispatch settings in the order and widths of the request (R187). -/
def dispatchBytes (d : DispatchSettings) : List Byte :=
  Port.all.flatMap (fun p => be8 (tierCode (d.tiers.get p)) ++ be8 (d.runs.get p)) ++ be16 d.window ++ be8 d.decay

/-- SET DISPATCH. DEDUCED: the decay deadlines are computed anew only where the period changes (log, entry 20). -/
def serveSetDispatch (tiers runs : PerPort Byte) (window : Half) (decay : Byte) (s : State) : State × Answer :=
  let d := dispatchTaken tiers runs window decay
  let t := if d.decay != s.dispatch.decay then s.decayAll d.decay else s
  ({ t with dispatch := d }).answer .ok (dispatchBytes d)

def execSetDispatch (p : Port) (tag : Byte) (tiers runs : PerPort Byte) (window : Half) (decay : Byte) (s : State) :
    Host.Outcome State Fault Refusal :=
  submit s p ⟨0x34, tag, [tiers.p0, runs.p0, tiers.p1, runs.p1, tiers.p2, runs.p2, tiers.p3, runs.p3, tiers.p4, runs.p4,
    tiers.p5, runs.p5, hiByte window, loByte window, decay]⟩ (serveSetDispatch tiers runs window decay)

/-! ### SET HAND-OFF (R71, R140) -/

/-- The settings a SET HAND-OFF takes, after clamping (R140). -/
def handOffTaken (tl tp tw tr : Half) (ll lp lw lr lapse : Byte) : HandOffSettings :=
  { times := ⟨clamp 30 3600 tl.toNat, clamp 30 3600 tp.toNat, clamp 30 3600 tw.toNat, clamp 30 3600 tr.toNat⟩
    limits := ⟨clamp 1 15 ll.toNat, clamp 1 15 lp.toNat, clamp 1 15 lw.toNat, clamp 1 15 lr.toNat⟩
    lapseLimit := clamp 1 7 lapse.toNat }

/-- Whether a copy fails at the new limits: WAITING or HELD_FOR, its precedence's limit lowered, its attempts at or above it (R71). -/
def limitFails (old new : PerPrec) (prec : Prec) (c : Copy) : Bool :=
  c.idle && new.get prec < old.get prec && new.get prec ≤ c.attempts

/-- The copies of the store that meet a condition, by local number and addressee index. -/
def State.refsWhere (s : State) (ok : Message → Copy → Bool) : List (Nat × Nat) := (s.cands ok).map fun x => (x.msg.number, x.index)

/-- The hand-off settings in the order and widths of the request (R187). -/
def handOffBytes (h : HandOffSettings) : List Byte :=
  be16 h.times.life ++ be16 h.times.priority ++ be16 h.times.welfare ++ be16 h.times.routine
    ++ be8 h.limits.life ++ be8 h.limits.priority ++ be8 h.limits.welfare ++ be8 h.limits.routine ++ be8 h.lapseLimit

def serveSetHandOff (tl tp tw tr : Half) (ll lp lw lr lapse : Byte) (s : State) : State × Answer :=
  let h := handOffTaken tl tp tw tr ll lp lw lr lapse
  let refs := s.refsWhere fun m c => limitFails s.handOff.limits h.limits m.prec c
  let t := { s with handOff := h }.changeCopies refs fun c => c.become .failed
  t.answer .ok (handOffBytes h ++ be16 refs.length)

def execSetHandOff (p : Port) (tag : Byte) (tl tp tw tr : Half) (ll lp lw lr lapse : Byte) (s : State) :
    Host.Outcome State Fault Refusal :=
  submit s p ⟨0x35, tag, [hiByte tl, loByte tl, hiByte tp, loByte tp, hiByte tw, loByte tw, hiByte tr, loByte tr, ll, lp, lw, lr, lapse]⟩
    (serveSetHandOff tl tp tw tr ll lp lw lr lapse)

/-! ### SET CHANNEL ADMIN (R127) -/

/-- The effects of a new admin mode on a channel: HOLD and BAR end its holds, BAR its ask too. -/
def State.enterMode (s : State) (k : Port) (m : AdminMode) : State :=
  let t := { s with admin := s.admin.set k m }
  match m with
  | .none_ | .step => t
  | .hold => t.releaseHolds k
  | .bar =>
    match (t.channels.get k).state with
    | .asking .. => (t.setChan k .ready).releaseHolds k
    | _ => t.releaseHolds k

def serveSetChannelAdmin (port mode : Byte) (s : State) : State × Answer :=
  match portOf port, adminOf mode with
  | some k, some m =>
    if !s.isChannel k then s.answer .badField
    else
      let t := s.enterMode k m
      t.answer .ok (be8 (adminCode (s.admin.get k)) ++ be8 (adminCode m) ++ be8 (t.channels.get k).state.count)
  | _, _ => s.answer .badField

def execSetChannelAdmin (p : Port) (tag port mode : Byte) (s : State) : Host.Outcome State Fault Refusal :=
  submit s p ⟨0x36, tag, [port, mode]⟩ (serveSetChannelAdmin port mode)

/-! ### RESTORE CHANNEL (R139) -/

def serveRestoreChannel (port : Byte) (s : State) : State × Answer :=
  match portOf port with
  | none => s.answer .badField
  | some k =>
    if !s.isChannel k then s.answer .badField
    else if (s.channels.get k).state != .lapsed then s.answer .state
    else (s.updChannel k fun _ => ⟨.closed, 0⟩).answer .ok

def execRestoreChannel (p : Port) (tag port : Byte) (s : State) : Host.Outcome State Fault Refusal :=
  submit s p ⟨0x37, tag, [port]⟩ (serveRestoreChannel port)

/-! ### SET STORE (R18) -/

/-- The settings a SET STORE takes, after clamping. -/
def storeTaken (auto : Byte) (timeout : Half) : StoreSettings := ⟨auto.toNat != 0, clamp 10 600 timeout.toNat⟩

def serveSetStore (auto : Byte) (timeout : Half) (s : State) : State × Answer :=
  let r := storeTaken auto timeout
  ({ s with storeSet := r }).answer .ok (beFlag r.autoPurge ++ be16 r.openTimeout)

def execSetStore (p : Port) (tag auto : Byte) (timeout : Half) (s : State) : Host.Outcome State Fault Refusal :=
  submit s p ⟨0x3C, tag, [auto, hiByte timeout, loByte timeout]⟩ (serveSetStore auto timeout)

/-! ### CLEAR STORE (R19 to R21) -/

/-- All traffic removed, with the events the removal raises; the configuration, the book and the counters are kept. -/
def State.clearTraffic (s : State) : State :=
  let lodging := Port.all.any fun p => (s.lodges.get p).isSome
  let t := s.raiseWhere .withdrawn fun p => !(s.lists.get p).isEmpty
  let t := t.raiseWhere .openExpired fun p => (s.lodges.get p).isSome || (lodging && s.isConsole p)
  { t with
    store := [], dupTable := [], ring := [], lodges := .same none, lists := .same []
    book := t.book.map (Option.map fun st => { st with waiting := 0 }) }

def serveClearStore (s : State) : State × Answer :=
  s.clearTraffic.checkLow.answer .ok (be8 s.store.length ++ be8 (s.lists.toList.map List.length).sum)

def execClearStore (p : Port) (tag : Byte) (s : State) : Host.Outcome State Fault Refusal :=
  submit s p ⟨0x3D, tag, []⟩ serveClearStore

/-! ### CLEAR COUNTERS (R141) -/

def serveClearCounters (s : State) : State × Answer :=
  ({ s with counters := .same zeroCounters, totals := ⟨0, 0, 0⟩ }).answer .ok

def execClearCounters (p : Port) (tag : Byte) (s : State) : Host.Outcome State Fault Refusal :=
  submit s p ⟨0x3E, tag, []⟩ serveClearCounters

end Sys2Proof.Machine
end

