-- ==== Sys2Proof/Machine/Arbiter.lean ====
section
/-! DEFINITION. The grant arbiter: the rings and pointers, the three steps of a choice, and what a grant does (R101 to R110). -/
namespace Sys2Proof.Machine

/-! ### Rings (R103, R104) -/

/-- A member of the first-level ring: a tier-A channel, or all of tier B. -/
inductive Member where
  | one (p : Port)
  | tierB
deriving DecidableEq, Repr

/-- The key of a member (R103). -/
def Member.key : Member → Nat
  | .one p => portNumber p
  | .tierB => 6

/-- The CHANNEL ports of a tier, in rising port order. -/
def State.tierPorts (s : State) (t : Tier) : List Port := Port.all.filter fun p => s.isChannel p && s.dispatch.tiers.get p == t

/-- The first-level ring in rising key order (R103). -/
def State.firstRing (s : State) : List Member :=
  (s.tierPorts .a).map .one ++ (if (s.tierPorts .b).isEmpty then [] else [.tierB])

/-- A ring in rising key order read once round, from the member after a pointer (R103). -/
def onceRound {α : Type} (key : α → Nat) (ptr : Option Nat) (ring : List α) : List α :=
  match ptr with
  | none => ring
  | some k => ring.filter (fun x => k < key x) ++ ring.filter fun x => key x ≤ k

/-- The first-level ring from the member after its pointer. -/
def State.scanFirst (s : State) : List Member := onceRound Member.key s.firstPtr s.firstRing

/-- The tier-B ring from the port after its pointer. -/
def State.scanTierB (s : State) : List Port := onceRound portNumber (s.tierBPtr.map portNumber) (s.tierPorts .b)

/-- The rotation order of the channels (R104). -/
def State.rotationOrder (s : State) : List Port :=
  s.scanFirst.flatMap fun m => match m with
    | .one p => [p]
    | .tierB => s.scanTierB

/-! ### The three steps (R105 to R108) -/

/-- How a grant was chosen, with what it does to the pointers and the streak. -/
inductive Step where
  | life
  | streak
  | rotation (member : Member)
deriving DecidableEq, Repr

/-- A grant chosen: the channel, the copy and the step. -/
structure Choice where
  port : Port
  cand : Cand
  step : Step
deriving DecidableEq, Repr

/-- The pairs of a channel whose copy is LIFE. -/
def State.lifePairs (s : State) (k : Port) : List Cand := (s.pairsOf k).filter fun x => x.msg.prec == .life

/-- Whether two candidates are the same copy. -/
def Cand.sameCopy (x y : Cand) : Bool := x.msg.number == y.msg.number && x.index == y.index

/-- The first port of the highest grade among ports in order. -/
def highestGrade : List (Nat × Port) → Option (Nat × Port)
  | [] => none
  | x :: xs =>
    match highestGrade xs with
    | none => some x
    | some y => if x.1 < y.1 then some y else some x

/-- Step 1: the LIFE copy of the highest best rank, to the channel of the highest grade for its station (R106). -/
def State.chooseLife (s : State) : Option Choice :=
  let ranked := s.rotationOrder.flatMap fun k => (s.lifePairs k).map fun x => (s.rankOf k x, x)
  match firstRanked ranked with
  | none => none
  | some (_, x) =>
    let ports := s.rotationOrder.filter fun k => (s.lifePairs k).any x.sameCopy
    (highestGrade (ports.map fun k => (s.grade x.copy.station k, k))).map fun gp => ⟨gp.2, x, .life⟩

/-- Step 2: the streak's channel with its highest-ranked copy for the streak's station, while the streak applies (R107). -/
def State.chooseStreak (s : State) : Option Choice :=
  match s.streak with
  | none => none
  | some k =>
    if k.count < s.dispatch.runs.get k.port then
      (s.best k.port ((s.pairsOf k.port).filter fun x => x.copy.station == k.station)).map fun x => ⟨k.port, x, .streak⟩
    else none

/-- The channel that a member of the first-level ring gives, if it has a pair (R108). -/
def State.memberPort (s : State) : Member → Option Port
  | .one p => if s.hasPair p then some p else none
  | .tierB => s.scanTierB.find? s.hasPair

/-- Step 3: the first member of the scan with a pair, with its channel's highest-ranked copy (R108). -/
def State.chooseRotation (s : State) : Option Choice :=
  match s.scanFirst.find? fun m => (s.memberPort m).isSome with
  | none => none
  | some m =>
    (s.memberPort m).bind fun k => (s.best k (s.pairsOf k)).map fun x => ⟨k, x, .rotation m⟩

/-- The next grant: the first step that applies (R105). -/
def State.choose (s : State) : Option Choice := s.chooseLife <|> s.chooseStreak <|> s.chooseRotation

/-! ### What a grant does (R109, R110) -/

/-- The ask count of a channel one lower; at 0 the ask ends with its filter and the channel is READY (R109). -/
def lowerAsk : ChanState → ChanState
  | .asking c f => if c ≤ 1 then .ready else .asking (c - 1) f
  | x => x

/-- The pointers and the streak as a grant leaves them (R105, R107, R108). -/
def State.moveRotation (s : State) (c : Choice) : State :=
  match c.step with
  | .life => s
  | .streak => { s with streak := s.streak.map fun k => { k with count := k.count + 1 } }
  | .rotation m =>
    { s with
      firstPtr := some m.key
      tierBPtr := match m with
        | .one _ => s.tierBPtr
        | .tierB => some c.port
      streak := some ⟨c.port, c.cand.copy.station, 1⟩ }

/-- A grant record carried in the ASK reply that waits at a port, if one does (R102). -/
def Service.carry (record : List Byte) : Option Service → Option Service
  | some (.asking f clamped stood filter records) => some (.asking f clamped stood filter (records ++ [record]))
  | x => x

/-- A grant of a copy carried in the ASK reply that its port waits for, with its record as it stands at the grant (R102, R110). -/
def State.carryGrant (s : State) (p : Port) (n i : Nat) : State :=
  s.updUnit p fun u => { u with service := Service.carry (((s.entryOf p n i).map s.recordOf).getD []) u.service }

/-- A chosen grant made: one event (R109). -/
def State.makeGrant (s : State) (c : Choice) : State :=
  let n := c.cand.msg.number
  let t := s.handOver c.port n c.cand.index c.cand.msg.prec
  let t := t.updChannel c.port fun x => { x with state := lowerAsk x.state }
  let t := (t.moveRotation c).raiseAt .granted c.port
  t.carryGrant c.port n c.cand.index

/-- The Dispatch Unit's event: it takes its next grant while a pair exists, and does nothing when none does (R101). -/
def State.takeGrant (s : State) : State :=
  match s.choose with
  | some c => s.makeGrant c
  | none => s

def execGrant (s : State) : Host.Outcome State Fault Refusal := event s State.takeGrant

/-! ### The end of a hold (R114) -/

/-- The hold end of a copy taken, if the copy is still held and the store clock has reached it (R65, R114). -/
def State.endHold (s : State) (n i : Nat) : State :=
  match (s.copyAt n i).bind Copy.state with
  | some (.heldFor _ t) => if t ≤ s.clock then s.changeCopy n i fun c => c.become .waiting else s
  | _ => s

def execHoldEnd (n i : Nat) (s : State) : Host.Outcome State Fault Refusal := event s fun t => t.endHold n i

end Sys2Proof.Machine
end

