-- ==== Sys2Proof/Machine/Copies.lean ====
section
/-! DEFINITION. The console requests on copies and messages: CANCEL, PIN, REQUEUE, PURGE (R14, R15, R75 to R84). -/
namespace Sys2Proof.Machine

/-! ### CANCEL (R75 to R77) -/

/-- Whether a CANCEL acts on a copy: WAITING, HELD_FOR or TAKEN. -/
def Copy.cancellable (c : Copy) : Bool :=
  match c.state with
  | some .waiting | some (.heldFor ..) | some (.taken _) => true
  | _ => false

/-- A copy as a CANCEL leaves it (R76). -/
def Copy.cancel (c : Copy) : Copy :=
  match c.state with
  | some .waiting | some (.heldFor ..) => c.become .cancelled
  | some (.taken j) => c.become (.withdrawing j)
  | _ => c

/-- One copy cancelled; a holder is told by WITHDRAWN (R76). -/
def State.cancelCopy (s : State) (n i : Nat) : State :=
  match s.copyAt n i with
  | some c =>
    let t := s.changeCopy n i Copy.cancel
    match c.state with
    | some (.taken j) => t.raiseAt .withdrawn j
    | _ => t
  | none => s

/-- Whether a copy is TAKEN. -/
def Copy.isTaken (c : Copy) : Bool :=
  match c.state with
  | some (.taken _) => true
  | _ => false

/-- The addressee indices of a message. -/
def Message.indices (m : Message) : List Nat := List.range m.copies.length

def serveCancel (number : Half) (selector : Byte) (s : State) : State × Answer :=
  match numberOf number, selectorOf selector with
  | some n, some sel =>
    match s.findMsg n with
    | none => s.answer .noSuch
    | some m =>
      match sel with
      | .one i =>
        match m.copies[i]? with
        | none => s.answer .noSuch
        | some c =>
          if m.isOpen then s.answer .state
          else if !c.cancellable then s.answer .already
          else (s.cancelCopy n i).answer .ok (be8 c.cancel.code)
      | .all =>
        if m.isOpen then s.answer .state
        else if !m.copies.any Copy.cancellable then s.answer .already
        else
          (m.indices.foldl (fun t i => t.cancelCopy n i) s).answer .ok
            (be8 (m.copies.countP Copy.idle) ++ be8 (m.copies.countP Copy.isTaken) ++ be8 (m.copies.countP fun c => !c.cancellable))
  | _, _ => s.answer .badField

def execCancel (p : Port) (tag : Byte) (number : Half) (selector : Byte) (s : State) : Host.Outcome State Fault Refusal :=
  submit s p ⟨0x38, tag, [hiByte number, loByte number, selector]⟩ (serveCancel number selector)

/-! ### PIN (R80, R81) -/

/-- The target of a PIN: a port, or none; the outer none breaks the field. -/
def pinTarget (b : Byte) : Option (Option Port) :=
  if b.toNat = 0xFF then some none else (portOf b).map some

/-- Whether a copy may be pinned in its state: not DELIVERED, RELAYED or CANCELLED, and its message not OPEN. -/
def Copy.pinnable (c : Copy) : Bool :=
  match c.state with
  | none | some (.delivered ..) | some (.relayed ..) | some .cancelled => false
  | some .waiting | some (.heldFor ..) | some (.taken _) | some (.withdrawing _) | some .failed => true

/-- A copy as a PIN leaves it: a hold for a port other than a target port ends (R81). -/
def Copy.pinTo (target : Option Port) (c : Copy) : Copy :=
  let d := { c with pinned := target }
  match target, c.state with
  | some k, some (.heldFor h _) => if h == k then d else d.become .waiting
  | _, _ => d

def servePin (number : Half) (index target : Byte) (s : State) : State × Answer :=
  match numberOf number, indexOf index, pinTarget target with
  | some n, some i, some k =>
    if (k.map fun q => !s.isChannel q).getD false then s.answer .badField
    else
      match s.findMsg n with
      | none => s.answer .noSuch
      | some m =>
        match m.copies[i]? with
        | none => s.answer .noSuch
        | some c =>
          if c.isLocal then s.answer .badField
          else if m.isOpen || !c.pinnable then s.answer .state
          else
            (s.changeCopy n i (Copy.pinTo k)).answer .ok (bePort c.pinned ++ bePort k ++ be8 (c.pinTo k).code)
  | _, _, _ => s.answer .badField

def execPin (p : Port) (tag : Byte) (number : Half) (index target : Byte) (s : State) : Host.Outcome State Fault Refusal :=
  submit s p ⟨0x39, tag, [hiByte number, loByte number, index, target]⟩ (servePin number index target)

/-! ### REQUEUE (R83, R84) -/

/-- Whether a copy is FAILED. -/
def Copy.isFailed (c : Copy) : Bool := c.state == some .failed

/-- A copy as a REQUEUE leaves it: a FAILED one waits or is held, with its attempts 0 (R84). -/
def State.requeued (s : State) (prec : Prec) (c : Copy) : Copy :=
  if c.isFailed then { c with state := some (s.entryState prec c), attempts := 0 } else c

/-- The copies of a message that a selector selects, with their indices. -/
def Message.selected (m : Message) (sel : Selector) : List (Copy × Nat) :=
  match sel with
  | .one i => (m.copies.zipIdx.drop i).take 1
  | .all => m.copies.zipIdx

def serveRequeue (number : Half) (selector : Byte) (s : State) : State × Answer :=
  match numberOf number, selectorOf selector with
  | some n, some sel =>
    match s.findMsg n with
    | none => s.answer .noSuch
    | some m =>
      let picked := m.selected sel
      if picked.isEmpty then s.answer .noSuch
      else if m.isOpen then s.answer .state
      else if !picked.any fun ci => ci.1.isFailed then s.answer .state
      else
        let acted := picked.filter fun ci => ci.1.isFailed
        (acted.foldl (fun t ci => t.changeCopy n ci.2 (s.requeued m.prec)) s).answer .ok
          (be8 acted.length ++ be8 (acted.countP fun ci => match s.entryState m.prec ci.1 with | .heldFor .. => true | _ => false))
  | _, _ => s.answer .badField

def execRequeue (p : Port) (tag : Byte) (number : Half) (selector : Byte) (s : State) : Host.Outcome State Fault Refusal :=
  submit s p ⟨0x3A, tag, [hiByte number, loByte number, selector]⟩ (serveRequeue number selector)

/-! ### PURGE (R14, R15) -/

def servePurge (number : Half) (s : State) : State × Answer :=
  match numberOf number with
  | none => s.answer .badField
  | some n =>
    match s.findMsg n with
    | none => s.answer .noSuch
    | some m =>
      if m.isOpen then s.answer .state
      else if m.copies.any Copy.inList then s.answer .inUse
      else (s.purgeMsg m).checkLow.answer .ok (be16 n ++ be8 m.chain.length ++ be8 (m.copies.countP Copy.live))

def execPurge (p : Port) (tag : Byte) (number : Half) (s : State) : Host.Outcome State Fault Refusal :=
  submit s p ⟨0x3B, tag, [hiByte number, loByte number]⟩ (servePurge number)

end Sys2Proof.Machine
end

