-- ==== Sys2Proof/Machine/Events.lean ====
section
/-! DEFINITION. The requests of the Event Unit: CLEAR EVENTS, SET EVENT MASK, SET ANNUNCIATOR (R171, R172, R176). -/
namespace Sys2Proof.Machine

/-! ### CLEAR EVENTS (R171) -/

def serveClearEvents (p : Port) (set : Half) (s : State) : State × Answer :=
  match eventSetOf set with
  | none => s.answer .badField
  | some e =>
    let t := { s with status := s.status.set p (s.status.get p &&& ~~~e) }
    t.answer .ok (beEvents (t.status.get p) ++ be8 (eventCode (t.firstEvent p)))

def execClearEvents (p : Port) (tag : Byte) (set : Half) (s : State) : Host.Outcome State Fault Refusal :=
  submit s p ⟨0x02, tag, [hiByte set, loByte set]⟩ (serveClearEvents p set)

/-! ### SET EVENT MASK (R172) -/

def serveSetEventMask (p : Port) (set : Half) (s : State) : State × Answer :=
  match eventSetOf set with
  | none => s.answer .badField
  | some e =>
    let t := { s with enable := s.enable.set p (e &&& routedSet (s.roles.get p)) }
    t.answer .ok (beEvents (t.enable.get p) ++ beEvents (t.status.get p) ++ be8 (eventCode (t.firstEvent p)))

def execSetEventMask (p : Port) (tag : Byte) (set : Half) (s : State) : Host.Outcome State Fault Refusal :=
  submit s p ⟨0x03, tag, [hiByte set, loByte set]⟩ (serveSetEventMask p set)

/-! ### SET ANNUNCIATOR (R176) -/

def serveSetAnnunciator (an0 an1 an2 an3 : Byte) (s : State) : State × Answer :=
  match annFnOf an0, annFnOf an1, annFnOf an2, annFnOf an3 with
  | some a, some b, some c, some d =>
    let t := { s with annFns := ⟨a, b, c, d⟩ }
    t.answer .ok (t.annFns.toList.flatMap (fun f => be8 (annFnCode f)) ++ t.annFns.toList.flatMap fun f => beFlag (t.annHolds f))
  | _, _, _, _ => s.answer .badField

def execSetAnnunciator (p : Port) (tag an0 an1 an2 an3 : Byte) (s : State) : Host.Outcome State Fault Refusal :=
  submit s p ⟨0x3F, tag, [an0, an1, an2, an3]⟩ (serveSetAnnunciator an0 an1 an2 an3)

end Sys2Proof.Machine
end

