-- ==== Sys2Proof/Machine/Lodging.lean ====
section
/-! DEFINITION. The Lodge Unit: LODGE OPEN, LODGE PART, LODGE CLOSE, LODGE DROP and the open timeout (R23 to R43), with the reserves
and auto-purge of the Traffic Store (R10 to R12, R17). -/
namespace Sys2Proof.Machine

/-! ### Auto-purge (R17) -/

/-- Whether a message is a candidate for auto-purge: CLOSED with no FAILED copy. -/
def purgeable (m : Message) : Bool := m.isClosed && !m.hasFailed

/-- Whether one candidate is purged before another: the smaller filing sequence; equal ones in an order the manual leaves open
(log, entry 4). -/
def purgesBefore (x y : Message) : Bool :=
  if x.sequence != y.sequence then x.sequence < y.sequence
  else if Config.purgeTie x.number != Config.purgeTie y.number then Config.purgeTie x.number < Config.purgeTie y.number
  else x.number < y.number

/-- A message entered at its place among the candidates. -/
def insertCand (m : Message) : List Message → List Message
  | [] => [m]
  | x :: xs => if purgesBefore m x then m :: x :: xs else x :: insertCand m xs

/-- The candidates for auto-purge, oldest filing first. -/
def State.purgeCands (s : State) : List Message := (s.store.filter purgeable).foldr insertCand []

/-- One candidate purged, and counted in the auto-purges. -/
def State.autoPurgeOne (s : State) (m : Message) : State :=
  let t := s.purgeMsg m
  { t with totals := { t.totals with autoPurges := bump t.totals.autoPurges } }

/-- The shortest run of candidates purged whose purging makes the condition hold; none when no run is enough. -/
def autoPurgeRun (cond : State → Bool) : List Message → State → Option State
  | [], _ => none
  | m :: ms, s =>
    let t := s.autoPurgeOne m
    if cond t then some t else autoPurgeRun cond ms t

/-- The state in which a reserve condition holds: this one, or the one after an auto-purge that is enough; none is FULL (R11, R12, R17). -/
def State.makeRoom (s : State) (cond : State → Bool) : Option State :=
  if cond s then some s
  else if s.storeSet.autoPurge then autoPurgeRun cond s.purgeCands s
  else none

/-- The slot condition for a precedence (R11). -/
def slotCondition (prec : Prec) (s : State) : Bool :=
  if prec == .life then 0 < s.freeSlots else Config.slotReserve < s.freeSlots

/-- The block condition for a precedence and a need of `n` new blocks; a part that needs none is not tested (R10, R12). -/
def blockCondition (prec : Prec) (n : Nat) (s : State) : Bool :=
  n == 0 ||
    (if prec == .life || prec == .priority then n ≤ s.freeBlocks else n + Config.blockReserve ≤ s.freeBlocks)

/-! ### Resolution of addressees (R26) -/

/-- How an addressee was resolved: its call, its entry, whether a new entry is made for it and whether that recycles one. -/
structure Resolved where
  call     : Call
  entry    : Nat
  made     : Bool
  recycled : Bool
deriving DecidableEq, Repr

/-- The addressees resolved in turn over a book that takes each new entry as it is given; none when one cannot be given (R26, R49).
DEDUCED: in turn, so an entry recycled for an earlier addressee is gone for a later one (log, entry 15). -/
def resolveAll (isNamed : Nat → Bool) (now : Nat) : List Call → List (Option Station) → List Nat → Option (List Resolved)
  | [], _, _ => some []
  | c :: cs, book, busy =>
    match findCall book c with
    | some e => (resolveAll isNamed now cs book (e :: busy)).map fun rs => ⟨c, e, false, false⟩ :: rs
    | none =>
      match provideEntry book isNamed busy with
      | none => none
      | some (e, recycled) =>
        (resolveAll isNamed now cs (book.set e (some (newStation c .auto now))) (e :: busy)).map fun rs =>
          ⟨c, e, true, recycled⟩ :: rs

/-- The new entries of a served open written (R29, step 2). -/
def State.writeResolved (s : State) (rs : List Resolved) : State :=
  rs.foldl (fun t r => if r.made then t.writeEntry r.entry r.recycled (newStation r.call .auto t.clock) else t) s

/-! ### Local numbers (R7) -/

/-- The number after another: 9,999 is followed by 1. -/
def numberAfter (n : Nat) : Nat := if Config.numberMax ≤ n then 1 else n + 1

/-- Whether a candidate is passed over: a message in the store holds it, or the table holds its own-call key. -/
def State.numberTaken (s : State) (n : Nat) : Bool :=
  s.store.any (fun m => m.number == n) || s.dupTable.contains ⟨s.ownCall, n⟩

/-- The first candidate not passed over, from a first one on. A number is found within 257 candidates. -/
def State.findNumber (s : State) : Nat → Nat → Nat
  | 0, n => n
  | fuel + 1, n => if s.numberTaken n then s.findNumber fuel (numberAfter n) else n

/-- The local number that the next served open is given. -/
def State.nextNumber (s : State) : Nat := s.findNumber 257 (numberAfter s.lastNumber)

/-! ### LODGE OPEN (R24 to R30) -/

/-- What a LODGE OPEN carries, once its fields have passed: the origin is absent for own traffic. -/
structure OpenFields where
  prec   : Prec
  origin : Option Call
  serial : Nat
  check  : Nat
  calls  : List Call
deriving DecidableEq, Repr

/-- The fields of a LODGE OPEN tested and folded (R24). -/
def openFields (prec : Byte) (origin : List Byte) (serial check : Half) (addressees : List (List Byte)) : Option OpenFields :=
  match precOf prec, callsOf addressees with
  | some pr, some calls =>
    if 999 < check.toNat || calls.isEmpty || 8 < calls.length then none
    else if isBlankCall origin then some ⟨pr, none, serial.toNat, check.toNat, collapse calls⟩
    else (callOf origin).map fun o => ⟨pr, some o, serial.toNat, check.toNat, collapse calls⟩
  | _, _ => none

/-- The duplicates count goes up and DUPLICATE_SEEN is raised at the consoles (R28). -/
def State.countDuplicate (s : State) : State :=
  { s with totals := { s.totals with duplicates := bump s.totals.duplicates } }.raiseConsoles .duplicateSeen

/-- An open that has passed every test is served, given the room it needs (R29). -/
def State.serveOpen (s : State) (p : Port) (f : OpenFields) (rs : List Resolved) : State × Answer :=
  let s := s.writeResolved rs
  let number := s.nextNumber
  let origin := f.origin.getD s.ownCall
  let serial := if f.origin.isSome then f.serial else number
  let key : Key := ⟨origin, serial⟩
  let deadline := later s.clock s.storeSet.openTimeout
  let m : Message :=
    { number, phase := .opened, prec := f.prec, origin, serial, wordCheck := f.check, lodgedAt := p, body := [], chain := [],
      openStamp := s.clock,
      copies := rs.map fun r => { station := r.entry, state := none, attempts := 0, uncertain := false, pinned := none } }
  let t := { s with
    store := insertMsg m s.store
    lastNumber := number
    dupTable := s.dupTable ++ [key]
    ring := if f.origin.isSome then s.ring else s.ring.erase key
    lodges := s.lodges.set p (some ⟨number, deadline⟩) }
  t.checkLow.answer .ok (be16 number ++ be16 serial ++ be32 deadline ++ be8 rs.length
    ++ rs.zipIdx.flatMap fun ri => be8 ri.2 ++ ri.1.call ++ be8 ri.1.entry ++ beFlag ri.1.made)

/-- The fields of a DUPLICATE reply that name the message holding a key: local number, state, lodging port (R28, R30). -/
def State.holderOfKey (s : State) (key : Key) : List Byte :=
  match s.store.find? fun m => m.key == key with
  | some m => be16 m.number ++ be8 (phaseCode m.phase) ++ be8 (portNumber m.lodgedAt)
  | none => be16 0 ++ be8 0xFF ++ be8 0xFF

/-- The slot test of an open that has passed the others, with auto-purge tried; FULL where it fails (R29). -/
def State.openIfRoom (s : State) (p : Port) (f : OpenFields) (rs : List Resolved) : State × Answer :=
  match s.makeRoom (slotCondition f.prec) with
  | none => s.answer .full
  | some t => t.serveOpen p f rs

def serveLodgeOpen (p : Port) (prec : Byte) (origin : List Byte) (serial check : Half) (addressees : List (List Byte)) (s : State) :
    State × Answer :=
  match openFields prec origin serial check addressees with
  | none => s.answer .badField
  | some f =>
    match s.lodges.get p with
    | some l => s.answer .state (be16 l.number)
    | none =>
      match resolveAll s.named s.clock f.calls s.book [] with
      | none => s.answer .bookFull
      | some rs =>
        match f.origin.map fun o => (⟨o, f.serial⟩ : Key) with
        | some key =>
          if s.dupTable.contains key then s.countDuplicate.answer .duplicate (s.holderOfKey key)
          else if s.ring.contains key then s.countDuplicate.answer .duplicate (be16 0 ++ be8 0xFF ++ be8 0xFF)
          else s.openIfRoom p f rs
        | none => s.openIfRoom p f rs

def execLodgeOpen (p : Port) (tag prec : Byte) (origin : List Byte) (serial check : Half) (addressees : List (List Byte)) (s : State) :
    Host.Outcome State Fault Refusal :=
  submit s p ⟨0x10, tag, prec :: (origin ++ [hiByte serial, loByte serial, hiByte check, loByte check] ++ addressees.flatten)⟩
    (serveLodgeOpen p prec origin serial check addressees)

/-! ### LODGE PART (R31, R32) -/

/-- The OPEN message of a port's lodge context. -/
def State.lodgedMsg (s : State) (p : Port) : Option Message := (s.lodges.get p).bind fun l => s.findMsg l.number

/-- A part appended to a message: the blocks it needs join the chain, its bytes the body, and the open deadline is renewed (R32). -/
def State.appendPart (s : State) (p : Port) (m : Message) (bytes : List Byte) (need : Nat) : State :=
  let taken := pickBlocks need s.picks s.freeBlockList
  { s.updMsg m.number fun x => { x with body := x.body ++ bytes, chain := x.chain ++ taken } with
    picks := s.picks + need
    lodges := s.lodges.set p (some ⟨m.number, later s.clock s.storeSet.openTimeout⟩) }

def serveLodgePart (p : Port) (bytes : List Byte) (s : State) : State × Answer :=
  match s.lodgedMsg p with
  | none => s.answer .noOpen
  | some m =>
    let total := m.body.length + bytes.length
    if Config.bodyMax < total then s.answer .tooLong
    else
      let need := blocksFor total - m.chain.length
      match s.makeRoom (blockCondition m.prec need) with
      | none => s.answer .full
      | some t =>
        (t.appendPart p m bytes need).checkLow.answer .ok
          (be16 total ++ be16 (Config.bodyMax - total) ++ be32 (later s.clock s.storeSet.openTimeout))

def execLodgePart (p : Port) (tag : Byte) (body : List Byte) (s : State) : Host.Outcome State Fault Refusal :=
  submit s p ⟨0x11, tag, body⟩ (serveLodgePart p body)

/-! ### LODGE CLOSE (R33 to R35) -/

/-- Whether a byte separates words: space, tab, carriage return, line feed (R33). -/
def isSeparator (b : Byte) : Bool := b == 0x20 || b == 0x09 || b == 0x0D || b == 0x0A

/-- The words of a body: its maximal runs of bytes that are not separators. The first argument says whether a word is running. -/
def countWords : Bool → List Byte → Nat
  | _, [] => 0
  | running, b :: bs =>
    if isSeparator b then countWords false bs
    else (if running then 0 else 1) + countWords true bs

/-- The word count of a body, holding at 999 (R33). -/
def wordCount (body : List Byte) : Nat := min 999 (countWords false body)

/-- The filing fields a message takes when it is filed now (R33, R34). -/
def State.filingFor (s : State) (m : Message) : Filing :=
  let words := wordCount m.body
  { wordCount := words, checkDiffers := m.wordCheck != 0 && m.wordCheck != words, filedStamp := s.clock,
    sequence := min (s.filingCount + 1) Config.clockMax }

/-- The copies of a message as its filing leaves them: each in its first state, with the counts and flags clear (R34, step 4). -/
def State.filedCopies (s : State) (m : Message) : List Copy :=
  m.copies.map fun c =>
    { c with state := some (s.entryState m.prec c), attempts := 0, uncertain := false }

/-- The OPEN message of a port's lodge context filed (R34, R35). -/
def State.fileMsg (s : State) (p : Port) (m : Message) : State :=
  let f := s.filingFor m
  let copies := s.filedCopies m
  let t := s.updMsg m.number fun x => { x with phase := .filed f, copies := copies }
  let t := copies.foldl (fun u c => u.updStation c.station (Station.recount false true)) t
  let t := { t with
    filingCount := f.sequence
    lodges := t.lodges.set p none
    totals := { t.totals with lodged := bump t.totals.lodged } }
  let t := t.raiseAllIf (m.prec == .life) .lifeFiled
  let t := t.raiseAllIf (copies.any Copy.isLocal) .localWaiting
  t.raiseConsolesIf f.checkDiffers .checkDiffers

/-- Whether a copy is HELD_FOR some channel. -/
def Copy.held (c : Copy) : Bool :=
  match c.state with
  | some (.heldFor ..) => true
  | _ => false

def serveLodgeClose (p : Port) (s : State) : State × Answer :=
  match s.lodgedMsg p with
  | none => s.answer .noOpen
  | some m =>
    let f := s.filingFor m
    (s.fileMsg p m).answer .ok (be16 m.number ++ be16 f.wordCount ++ be16 m.wordCheck ++ beFlag f.checkDiffers ++ be32 f.sequence
      ++ be32 f.filedStamp ++ be8 ((s.filedCopies m).countP Copy.held))

def execLodgeClose (p : Port) (tag : Byte) (s : State) : Host.Outcome State Fault Refusal :=
  submit s p ⟨0x12, tag, []⟩ (serveLodgeClose p)

/-! ### LODGE DROP and the open timeout (R36, R37) -/

def serveLodgeDrop (p : Port) (s : State) : State × Answer :=
  match s.lodgedMsg p with
  | none => s.answer .noOpen
  | some m => (s.dropLodge p m).checkLow.answer .ok (be16 m.number)

def execLodgeDrop (p : Port) (tag : Byte) (s : State) : Host.Outcome State Fault Refusal :=
  submit s p ⟨0x13, tag, []⟩ (serveLodgeDrop p)

/-- The open deadline of a port's lodge context taken, if the store clock has reached it (R37). -/
def State.expireOpen (s : State) (p : Port) : State :=
  match s.lodges.get p, s.lodgedMsg p with
  | some l, some m =>
    if l.deadline ≤ s.clock then
      ((s.dropLodge p m).raiseWhere .openExpired fun q => q == p || s.isConsole q).checkLow
    else s
  | _, _ => s

def execOpenTimeoutExpiry (p : Port) (s : State) : Host.Outcome State Fault Refusal :=
  event s fun t => t.expireOpen p

end Sys2Proof.Machine
end

