-- ==== Sys2Proof/Machine/Reading.lean ====
section
/-! DEFINITION. The reading requests: STATUS, READ HEADER, READ BODY, LIST TRAFFIC, READ STATION, FIND STATION, READ COUNTERS, RANK
QUERY, READ HAND-OFF LIST (R53, R95, R145 to R153). Each answers from the state as it stands and changes none of it. -/
namespace Sys2Proof.Machine

/-! ### STATUS (R153) -/

def serveStatus (p : Port) (s : State) : State × Answer := s.answer .ok (s.statusBytes p)

def execStatus (p : Port) (tag : Byte) (s : State) : Host.Outcome State Fault Refusal :=
  submit s p ⟨0x01, tag, []⟩ (serveStatus p)

/-! ### READ HEADER (R146, R147) -/

def serveReadHeader (number : Half) (first : Byte) (s : State) : State × Answer :=
  match numberOf number, indexOf first with
  | some n, some i =>
    match s.findMsg n with
    | none => s.answer .noSuch
    | some m =>
      if m.copies.length ≤ i then s.answer .noSuch
      else s.answer .ok (s.headerBytes m i ++ (m.twoCopies i).flatMap fun ci => s.copyBytes ci.1 ci.2)
  | _, _ => s.answer .badField

def execReadHeader (p : Port) (tag : Byte) (number : Half) (first : Byte) (s : State) : Host.Outcome State Fault Refusal :=
  submit s p ⟨0x04, tag, [hiByte number, loByte number, first]⟩ (serveReadHeader number first)

/-! ### READ BODY (R148) -/

def serveReadBody (number offset : Half) (s : State) : State × Answer :=
  match numberOf number with
  | none => s.answer .badField
  | some n =>
    match s.findMsg n with
    | none => s.answer .noSuch
    | some m =>
      if m.isOpen then s.answer .state
      else if m.body.length < offset.toNat then s.answer .badField
      else
        let chunk := (m.body.drop offset.toNat).take 48
        s.answer .ok (be32 s.clock ++ be16 offset.toNat ++ be16 m.body.length ++ be32 m.sequence
          ++ beFlag (offset.toNat + chunk.length == m.body.length) ++ chunk)

def execReadBody (p : Port) (tag : Byte) (number offset : Half) (s : State) : Host.Outcome State Fault Refusal :=
  submit s p ⟨0x05, tag, [hiByte number, loByte number, hiByte offset, loByte offset]⟩ (serveReadBody number offset)

/-! ### LIST TRAFFIC (R149, R150) -/

/-- Whether a message matches the three filter sets of a LIST TRAFFIC (R149). -/
def listMatches (states precs copies : Byte) (m : Message) : Bool :=
  (states == 0 || hasBit states (phaseCode m.phase))
    && (precs == 0 || hasBit precs (precCode m.prec))
    && (copies == 0 || m.copies.any fun c => (c.state.map fun x => hasBit copies (copyCode x)).getD false)

def serveListTraffic (after : Half) (states precs copies : Byte) (s : State) : State × Answer :=
  if Config.numberMax < after.toNat || !maskBelow states 3 || !maskBelow precs 4 then s.answer .badField
  else
    let found := s.store.filter fun m => after.toNat < m.number && listMatches states precs copies m
    let shown := found.take 8
    s.answer .ok (be32 s.clock ++ be8 shown.length ++ beFlag (8 < found.length)
      ++ shown.flatMap fun m => be16 m.number ++ be8 (phaseCode m.phase) ++ be8 (precCode m.prec))

def execListTraffic (p : Port) (tag : Byte) (after : Half) (states precs copies : Byte) (s : State) :
    Host.Outcome State Fault Refusal :=
  submit s p ⟨0x06, tag, [hiByte after, loByte after, states, precs, copies]⟩ (serveListTraffic after states precs copies)

/-! ### READ STATION and FIND STATION (R53) -/

def serveReadStation (entry : Byte) (s : State) : State × Answer :=
  if Config.entries ≤ entry.toNat then s.answer .badField
  else
    match s.station entry.toNat with
    | none => s.answer .noSuch
    | some st => s.answer .ok (s.stationBytes entry.toNat st)

def execReadStation (p : Port) (tag entry : Byte) (s : State) : Host.Outcome State Fault Refusal :=
  submit s p ⟨0x07, tag, [entry]⟩ (serveReadStation entry)

def serveFindStation (field : List Byte) (s : State) : State × Answer :=
  match callOf field with
  | none => s.answer .badField
  | some c =>
    match findCall s.book c with
    | none => s.answer .noSuch
    | some e =>
      match s.station e with
      | none => s.answer .noSuch
      | some st => s.answer .ok (s.stationBytes e st)

def execFindStation (p : Port) (tag : Byte) (call : List Byte) (s : State) : Host.Outcome State Fault Refusal :=
  submit s p ⟨0x08, tag, call⟩ (serveFindStation call)

/-! ### READ COUNTERS (R152) -/

def serveReadCounters (s : State) : State × Answer :=
  s.answer .ok (be32 s.clock ++ s.counters.toList.flatMap countersBytes ++ be16 s.totals.lodged ++ be16 s.totals.duplicates
    ++ be16 s.totals.autoPurges)

def execReadCounters (p : Port) (tag : Byte) (s : State) : Host.Outcome State Fault Refusal :=
  submit s p ⟨0x09, tag, []⟩ serveReadCounters

/-! ### RANK QUERY (R95, R96) -/

/-- The fields of a served RANK QUERY (R96). -/
def State.rankBytes (s : State) (m : Message) (c : Copy) (k : Port) : List Byte :=
  let t := s.rankTerms m c k
  be32 s.clock ++ be8 (precCode m.prec) ++ be8 c.code ++ be8 c.attempts ++ be8 t.grade ++ be8 (s.ranking.aging.get m.prec)
    ++ be8 s.ranking.penalty ++ be8 s.ranking.fit ++ be16 t.age ++ be16 t.aging ++ be16 t.penalty ++ be16 t.fit
    ++ beSigned t.raw ++ beFlag t.clamped ++ be16 t.rank

def serveRankQuery (number : Half) (index port : Byte) (s : State) : State × Answer :=
  match numberOf number, indexOf index, portOf port with
  | some n, some i, some k =>
    match s.findMsg n with
    | none => s.answer .noSuch
    | some m =>
      match m.copies[i]? with
      | none => s.answer .noSuch
      | some c => if m.isOpen then s.answer .state else s.answer .ok (s.rankBytes m c k)
  | _, _, _ => s.answer .badField

def execRankQuery (p : Port) (tag : Byte) (number : Half) (index port : Byte) (s : State) : Host.Outcome State Fault Refusal :=
  submit s p ⟨0x0A, tag, [hiByte number, loByte number, index, port]⟩ (serveRankQuery number index port)

/-! ### READ HAND-OFF LIST (R151) -/

def serveReadHandOffList (p : Port) (port : Byte) (s : State) : State × Answer :=
  match portOf port with
  | none => s.answer .badField
  | some k =>
    if s.roles.get k == .off then s.answer .badField
    else if !s.isConsole p && k != p then s.answer .notRole
    else
      let list := s.lists.get k
      let context := if s.isChannel k then be8 (chanCode (s.channels.get k).state) ++ be8 (s.channels.get k).state.count
        else be8 0xFF ++ be8 0xFF
      s.answer .ok (be32 s.clock ++ be8 (portNumber k) ++ be8 list.length ++ context ++ list.flatMap s.recordOf)

def execReadHandOffList (p : Port) (tag port : Byte) (s : State) : Host.Outcome State Fault Refusal :=
  submit s p ⟨0x0B, tag, [port]⟩ (serveReadHandOffList p port)

end Sys2Proof.Machine
end

