-- ==== Sys2Proof/Machine/Ports.lean ====
section
/-! DEFINITION. The line of a port: the receiver, the link faults, a frame decoded and served, a reply sent (R155 to R167). -/
namespace Sys2Proof.Machine

/-! ### A frame served by its owning block (R163) -/

/-- The owning block's service of a request. An event of the part's own is no request and is never decoded from a frame. -/
def serveRequest : Instr → State → State × Answer
  | .status p _ => serveStatus p
  | .clearEvents p _ e => serveClearEvents p e
  | .setEventMask p _ e => serveSetEventMask p e
  | .readHeader _ _ n i => serveReadHeader n i
  | .readBody _ _ n o => serveReadBody n o
  | .listTraffic _ _ n a b c => serveListTraffic n a b c
  | .readStation _ _ e => serveReadStation e
  | .findStation _ _ c => serveFindStation c
  | .readCounters _ _ => serveReadCounters
  | .rankQuery _ _ n i k => serveRankQuery n i k
  | .readHandOffList p _ k => serveReadHandOffList p k
  | .lodgeOpen p _ prec origin serial check as => serveLodgeOpen p prec origin serial check as
  | .lodgePart p _ body => serveLodgePart p body
  | .lodgeClose p _ => serveLodgeClose p
  | .lodgeDrop p _ => serveLodgeDrop p
  | .report p _ n i o relay => serveReport p n i o relay
  | .extend p _ n i => serveExtend p n i
  | .channelOpen p _ => serveChannelOpen p
  | .channelClose p _ => serveChannelClose p
  | .ask p _ n filter => serveAsk p n filter
  | .withdrawAsk p _ => serveWithdrawAsk p
  | .heard p _ c g => serveHeard p c g
  | .takeLocal p _ => serveTakeLocal p
  | .setOwnCall _ _ c => serveSetOwnCall c
  | .setStation _ _ c ports g clear => serveSetStation c ports g clear
  | .removeStation _ _ c => serveRemoveStation c
  | .setRanking _ _ l pr w r pen fit => serveSetRanking l pr w r pen fit
  | .setDispatch _ _ tr rn w d => serveSetDispatch tr rn w d
  | .setHandOff _ _ tl tp tw tr ll lp lw lr lapse => serveSetHandOff tl tp tw tr ll lp lw lr lapse
  | .setChannelAdmin _ _ k m => serveSetChannelAdmin k m
  | .restoreChannel _ _ k => serveRestoreChannel k
  | .cancel _ _ n sel => serveCancel n sel
  | .pin _ _ n i k => servePin n i k
  | .requeue _ _ n sel => serveRequeue n sel
  | .purge _ _ n => servePurge n
  | .setStore _ _ a o => serveSetStore a o
  | .clearStore _ _ => serveClearStore
  | .clearCounters _ _ => serveClearCounters
  | .setAnnunciator _ _ a b c d => serveSetAnnunciator a b c d
  | .grant | .storeClockTick | .openTimeoutExpiry _ | .deadlineExpiry .. | .holdEnd .. | .decay .. | .receiveCharacter ..
  | .framingError _ | .lineBreak _ | .frameGapExpiry _ | .replySent _ | .mainPowerApplied _ | .resetAsserted _ | .mainPowerLost
  | .backupSupplyLost | .startUpEnd _ | .lineReturnsToMark _ => fun s => s.answer .badKind

/-- The owning block's service of a frame whose kind, role and length have passed. -/
def serveFrame (p : Port) (f : Frame) (s : State) : State × Answer :=
  match decodeFrame p f with
  | some c => serveRequest c s
  | none => s.answer .badField

/-! ### The receiver (R157 to R161) -/

/-- A receiver put into another state. -/
def State.setReceiver (s : State) (p : Port) (r : Receiver) : State := s.updUnit p fun u => { u with receiver := r }

/-- A link fault: the frame being received is discarded and the receiver enters the state the table of R160 gives. -/
def State.faultTo (s : State) (p : Port) (cause : LinkCause) (r : Receiver) : State := (s.linkFault p cause).setReceiver p r

/-- The contents of a frame received whole: the receiver hunts again and the frame is taken (R158, R162). -/
def State.frameComplete (s : State) (p : Port) (contents : List Byte) : State :=
  let t := s.setReceiver p .hunting
  match contents with
  | kind :: tag :: fields => t.arrive p ⟨kind, tag, fields⟩ (serveFrame p ⟨kind, tag, fields⟩)
  | _ => t

/-- A sound character handled by the receiver state (R157 to R159). -/
def State.receive (s : State) (p : Port) (b : Byte) : State :=
  match (s.units.get p).receiver with
  | .off => s
  | .hunting => if b == Config.startMark then s.setReceiver p (.inFrame none []) else s
  | .inFrame none _ =>
    if b.toNat ≤ 1 then s.faultTo p .runt .hunting
    else if 96 < b.toNat then s.faultTo p .length (.resync false)
    else s.setReceiver p (.inFrame (some b.toNat) [])
  | .inFrame (some n) got =>
    let got := got ++ [b]
    if n ≤ got.length then s.frameComplete p got else s.setReceiver p (.inFrame (some n) got)
  | .resync _ => s.setReceiver p (.resync false)

/-- The outcome of an arrival on a port's line: taken no notice of unless the port is heard (R156, R165, R166). -/
def arrival (s : State) (p : Port) (f : State → State) : Host.Outcome State Fault Refusal :=
  if s.hears p then .next (f s).finish else .next s

def execReceiveCharacter (p : Port) (b : Byte) (s : State) : Host.Outcome State Fault Refusal :=
  arrival s p fun t => t.receive p b

/-- A character with its stop bit at space that is not a break (R159 to R161). -/
def State.receiveFraming (s : State) (p : Port) : State :=
  match (s.units.get p).receiver with
  | .off => s
  | .inFrame .. => s.faultTo p .framing (.resync false)
  | .hunting | .resync _ => s.setReceiver p (.resync false)

def execFramingError (p : Port) (s : State) : Host.Outcome State Fault Refusal := arrival s p fun t => t.receiveFraming p

/-- A break: the quiet wait starts when the line returns to mark (R159 to R161). DEDUCED: until then no frame gap ends RESYNC, and a character
received means that the break has ended (log, entry 16). -/
def State.receiveBreak (s : State) (p : Port) : State :=
  match (s.units.get p).receiver with
  | .off => s
  | .inFrame .. => s.faultTo p .lineBreak (.resync true)
  | .hunting | .resync _ => s.setReceiver p (.resync true)

def execLineBreak (p : Port) (s : State) : Host.Outcome State Fault Refusal := arrival s p fun t => t.receiveBreak p

/-- One frame gap without a new character: a GAP fault in a frame, the end of RESYNC when the line is at mark; HUNTING has no timer
(R157, R159, R160). -/
def State.receiveGap (s : State) (p : Port) : State :=
  match (s.units.get p).receiver with
  | .off | .hunting | .resync true => s
  | .inFrame .. => s.faultTo p .gap .hunting
  | .resync false => s.setReceiver p .hunting

def execFrameGapExpiry (p : Port) (s : State) : Host.Outcome State Fault Refusal := arrival s p fun t => t.receiveGap p

/-- A break ends: the quiet wait of RESYNC starts from this moment (R159). -/
def State.receiveMark (s : State) (p : Port) : State :=
  match (s.units.get p).receiver with
  | .resync true => s.setReceiver p (.resync false)
  | .off | .hunting | .inFrame .. | .resync false => s

def execLineReturnsToMark (p : Port) (s : State) : Host.Outcome State Fault Refusal := arrival s p fun t => t.receiveMark p

/-! ### A reply sent (R162) -/

/-- The last byte of a port's reply has been sent: service ends, and a held frame becomes the request in service in the same event. A
port with no reply in progress is as it was. DESIGN CHOICE: it is taken wherever the reply had come to (log, entry 9). -/
def State.endService (s : State) (p : Port) : State :=
  match (s.units.get p).service with
  | some (.replying ..) =>
    let t := s.updUnit p fun u => { u with service := none, held := none }
    match (s.units.get p).held with
    | some f => t.intoService p f (serveFrame p f)
    | none => t
  | some (.asking ..) | none => s

def execReplySent (p : Port) (s : State) : Host.Outcome State Fault Refusal := arrival s p fun t => t.endService p

/-! ### A reply under way (R155, R156) -/

/-- One more byte of a reply in progress has gone, up to the last but one: the end of the last byte is REPLY_SENT. -/
def Service.sendByte : Service → Service
  | .replying f reply gone => .replying f reply (if gone + 1 < reply.length then gone + 1 else gone)
  | .asking f clamped stood filter grants => .asking f clamped stood filter grants

/-- One character time passes on the lines: all six run at one rate, so each port that is heard sends one byte of its reply in progress.
DESIGN CHOICE: when it passes (log, entries 7 and 9). -/
def State.sendLines (s : State) : State :=
  { s with units := .build fun p =>
      if s.hears p then { s.units.get p with service := (s.units.get p).service.map Service.sendByte } else s.units.get p }

end Sys2Proof.Machine
end

