-- ==== Sys2Proof/Machine/Power.lean ====
section
/-! DEFINITION. Main power, the backup supply, RESET, and start-up: the cold start, the warm start with its recovery pass, and the end of
a start-up (R177 to R183). -/
namespace Sys2Proof.Machine

/-! ### The straps (R154, R155) -/

/-- The role that a pair of strap levels gives (R154). -/
def roleOf (x : StrapPair) : Role :=
  match x.a, x.b with
  | false, false => .off
  | false, true => .intake
  | true, false => .channel
  | true, true => .console

/-- The rate that a pair of strap levels gives (R155). -/
def rateOf (x : StrapPair) : Rate :=
  match x.a, x.b with
  | false, false => .baud19200
  | false, true => .baud38400
  | true, false => .baud57600
  | true, true => .baud115200

/-! ### The steps of a start-up -/

/-- The defaults of every retained item written, the latch cleared (R178, R180). -/
def State.coldDefaults (s : State) : State :=
  { s with
    clock := 0, store := [], lastNumber := 0, filingCount := 0, dupTable := [], ring := [], book := coldBook
    storeSet := coldStoreSet, ranking := coldRanking, dispatch := coldDispatch, handOff := coldHandOff, annFns := coldAnnFns
    admin := .same .none_, counters := .same zeroCounters, totals := ⟨0, 0, 0⟩, latch := false }

/-- The start values of the state that is not retained, but for roles, rate and enable sets: what every start-up gives it, and what the
model gives it when main power is lost (R156, R177, R181). -/
def State.clearVolatile (s : State) : State :=
  { s with
    units := .same (idleUnit .off), lodges := .same none, lists := .same [], channels := .same ⟨.closed, 0⟩
    firstPtr := none, tierBPtr := none, streak := none, status := .same 0, prevLow := false, recovered := 0 }

/-- The straps read, the state that is not retained given its start values (R154, R155, R170, R181). -/
def State.startValues (s : State) (x : Straps) : State :=
  let roles : PerPort Role := .build fun p => roleOf (x.roles.get p)
  { s.clearVolatile with roles := roles, rate := rateOf x.rate, enable := .build fun p => routedSet (roles.get p) }

/-- A station adjusted for the roles just read: no grade and no affinity at a port that is not a CHANNEL port (R54, R59). -/
def State.adjustStation (s : State) (st : Station) : Station :=
  { st with
    grades := .build fun p => if s.isChannel p then st.grades.get p else ⟨0, s.clock⟩
    affinity := st.affinity.bind fun a => if s.isChannel a.port then some a else none }

/-- The retained state adjusted for the roles just read: grades, affinities and pins at ports that are not CHANNEL ports go (R181). -/
def State.adjustRoles (s : State) : State :=
  { s with
    book := s.book.map (Option.map s.adjustStation)
    store := s.store.map fun m => { m with copies := m.copies.map fun c =>
      { c with pinned := c.pinned.bind fun k => if s.isChannel k then some k else none } } }

/-- A copy as the recovery pass leaves it (R182). -/
def Copy.recover (limit : Nat) (c : Copy) : Copy :=
  match c.state with
  | some (.heldFor ..) => c.become .waiting
  | _ => c.lost limit

/-- A message as the recovery pass leaves it: its copies recovered, and CLOSED if none of them is live any more (R182). -/
def State.recoverMsg (s : State) (m : Message) : Message :=
  Message.rephase s.clock { m with copies := m.copies.map (Copy.recover (s.limit m.prec)) }

/-- The number of live copies in a store addressed to an entry (R57). -/
def liveFor (store : List Message) (e : Nat) : Nat :=
  (store.map fun m => m.copies.countP fun c => c.live && c.station == e).sum

/-- The recovery pass of a warm start: one event (R182). -/
def State.recoveryPass (s : State) : State :=
  let dropped := s.store.filter Message.isOpen
  let store := (s.store.filter fun m => !m.isOpen).map s.recoverMsg
  { s with
    store := store
    dupTable := dropped.foldl (fun t m => t.erase m.key) s.dupTable
    book := s.book.mapIdx fun e st => st.map fun x => { x with waiting := liveFor store e }
    recovered := (s.store.map fun m => m.copies.countP Copy.inList).sum }

/-- Whether the recovery pass makes any copy FAILED (R183). -/
def State.recoveryFails (s : State) : Bool :=
  s.store.any fun m => !m.isOpen && m.copies.any fun c => c.state != some .failed && (c.recover (s.limit m.prec)).state == some .failed

/-- A warm start begun with some strap levels (R181, R182). -/
def State.warmStart (s : State) (x : Straps) : State :=
  let t := (s.startValues x).adjustRoles
  { t.recoveryPass with power := .startUp true t.recoveryFails }

/-- A cold start begun with some strap levels (R180). -/
def State.coldStart (s : State) (x : Straps) : State := { s.coldDefaults.startValues x with power := .startUp false false }

/-! ### The events -/

/-- Main power applied to a part without it: the latch is set if the retained domain was never powered, and the start is cold when the
latch is set, warm otherwise (R178). A part that has main power takes no notice. DESIGN CHOICE: the steps of the start-up are one event, which carries
the straps (log, entry 8). -/
def State.applyPower (s : State) (x : Straps) : State :=
  if s.powered then s
  else
    let t := { s with latch := s.latch || !s.everPowered, everPowered := true }
    (if t.latch then t.coldStart x else t.warmStart x).finish

def execMainPowerApplied (x : Straps) (s : State) : Host.Outcome State Fault Refusal := .next (s.applyPower x)

/-- RESET asserted: a warm start, whatever the latch, while main power is present (R178, R179). -/
def State.assertReset (s : State) (x : Straps) : State :=
  let t := { s with resetHeld := true }
  if s.powered then (t.warmStart x).finish else t

def execResetAsserted (x : Straps) (s : State) : Host.Outcome State Fault Refusal := .next (s.assertReset x)

/-- Main power lost: the retained domain stays, the rest is lost (R177). What is lost is rewritten by the next start-up before anything
reads it; the model gives it its start values at once. DESIGN CHOICE: log, entry 8. -/
def State.losePower (s : State) : State :=
  if s.powered then
    ({ s.clearVolatile with power := .unpowered, roles := .same Role.off, rate := .baud19200, enable := .same 0 }).finish
  else s

def execMainPowerLost (s : State) : Host.Outcome State Fault Refusal := .next s.losePower

/-- The backup supply falls below its retention level: the latch is set if main power is absent (R178). -/
def execBackupSupplyLost (s : State) : Host.Outcome State Fault Refusal :=
  .next (if s.powered then s else { s with latch := true })

/-- The events a start-up raises at its end (R183). -/
def State.endEvents (s : State) (warm failed : Bool) : State :=
  ((s.raiseConsolesIf warm .recovered).raiseConsolesIf failed .copyFailed).checkLow

/-- Start-up ends, unless RESET is held: the events are raised, every receiver of a port that is not OFF hunts, every decay deadline that the
store clock has reached is taken before anything else is, and the outputs take their levels (R58, R179, R183). DESIGN CHOICE: those decays
belong to the event of the end (log, entry 8). -/
def State.endStartUp (s : State) (held : Bool) : State :=
  match s.power with
  | .startUp warm failed =>
    let t := { s with resetHeld := held }
    if held then t
    else
      let t := t.endEvents warm failed
      let t := t.decayAll t.dispatch.decay
      { t with
        power := .running
        units := .build fun p => if t.roles.get p == Role.off then t.units.get p else { t.units.get p with receiver := .hunting } }.finish
  | .unpowered | .running => s

def execStartUpEnd (held : Bool) (s : State) : Host.Outcome State Fault Refusal := .next (s.endStartUp held)

end Sys2Proof.Machine
end

