-- ==== Sys2Proof/Machine/Timers.lean ====
section
/-! DEFINITION. The store clock and the decay of reach grades (R1, R58). -/
namespace Sys2Proof.Machine

/-- The store clock goes up by 1 at the end of a powered second, start-up included, and holds at its maximum (R1). The outputs do not
read the clock and no pair appears or ends with it. -/
def execStoreClockTick (s : State) : Host.Outcome State Fault Refusal :=
  .next (if s.powered then { s with clock := later s.clock 1 } else s)

/-- The decay deadline of a grade taken, if it has one and the store clock has reached it (R58). -/
def State.decayGrade (s : State) (e : Nat) (p : Port) : State :=
  match s.station e with
  | none => s
  | some st =>
    if s.isChannel p && decayDue s.clock s.dispatch.decay (st.grades.get p) then
      s.updStation e fun x => { x with grades := x.grades.set p (decayed s.clock (st.grades.get p)) }
    else s

def execDecay (e : Nat) (p : Port) (s : State) : Host.Outcome State Fault Refusal := event s fun t => t.decayGrade e p

end Sys2Proof.Machine
end

