-- ==== Sys2Proof/Machine/Dispatch.lean ====
section
/-! DEFINITION. What each command does to everything but the queue: one arm for each row of the table. -/
namespace Sys2Proof.Machine

def exec (i : Instr) (s : State) : Host.Outcome State Fault Refusal :=
  match i with
  | .status p tag => Sys2Proof.Machine.execStatus p tag s
  | .clearEvents p tag set => Sys2Proof.Machine.execClearEvents p tag set s
  | .setEventMask p tag set => Sys2Proof.Machine.execSetEventMask p tag set s
  | .readHeader p tag number first => Sys2Proof.Machine.execReadHeader p tag number first s
  | .readBody p tag number offset => Sys2Proof.Machine.execReadBody p tag number offset s
  | .listTraffic p tag after states precs copies => Sys2Proof.Machine.execListTraffic p tag after states precs copies s
  | .readStation p tag entry => Sys2Proof.Machine.execReadStation p tag entry s
  | .findStation p tag call => Sys2Proof.Machine.execFindStation p tag call s
  | .readCounters p tag => Sys2Proof.Machine.execReadCounters p tag s
  | .rankQuery p tag number index port => Sys2Proof.Machine.execRankQuery p tag number index port s
  | .readHandOffList p tag port => Sys2Proof.Machine.execReadHandOffList p tag port s
  | .lodgeOpen p tag prec origin serial check addressees => Sys2Proof.Machine.execLodgeOpen p tag prec origin serial check addressees s
  | .lodgePart p tag body => Sys2Proof.Machine.execLodgePart p tag body s
  | .lodgeClose p tag => Sys2Proof.Machine.execLodgeClose p tag s
  | .lodgeDrop p tag => Sys2Proof.Machine.execLodgeDrop p tag s
  | .report p tag number index outcome relay => Sys2Proof.Machine.execReport p tag number index outcome relay s
  | .extend p tag number index => Sys2Proof.Machine.execExtend p tag number index s
  | .channelOpen p tag => Sys2Proof.Machine.execChannelOpen p tag s
  | .channelClose p tag => Sys2Proof.Machine.execChannelClose p tag s
  | .ask p tag count filter => Sys2Proof.Machine.execAsk p tag count filter s
  | .withdrawAsk p tag => Sys2Proof.Machine.execWithdrawAsk p tag s
  | .heard p tag call grade => Sys2Proof.Machine.execHeard p tag call grade s
  | .takeLocal p tag => Sys2Proof.Machine.execTakeLocal p tag s
  | .setOwnCall p tag call => Sys2Proof.Machine.execSetOwnCall p tag call s
  | .setStation p tag call ports grades clear => Sys2Proof.Machine.execSetStation p tag call ports grades clear s
  | .removeStation p tag call => Sys2Proof.Machine.execRemoveStation p tag call s
  | .setRanking p tag life priority welfare routine penalty fit => Sys2Proof.Machine.execSetRanking p tag life priority welfare routine penalty fit s
  | .setDispatch p tag tiers runs window decay => Sys2Proof.Machine.execSetDispatch p tag tiers runs window decay s
  | .setHandOff p tag tLife tPriority tWelfare tRoutine lLife lPriority lWelfare lRoutine lapse => Sys2Proof.Machine.execSetHandOff p tag tLife tPriority tWelfare tRoutine lLife lPriority lWelfare lRoutine lapse s
  | .setChannelAdmin p tag port mode => Sys2Proof.Machine.execSetChannelAdmin p tag port mode s
  | .restoreChannel p tag port => Sys2Proof.Machine.execRestoreChannel p tag port s
  | .cancel p tag number selector => Sys2Proof.Machine.execCancel p tag number selector s
  | .pin p tag number index target => Sys2Proof.Machine.execPin p tag number index target s
  | .requeue p tag number selector => Sys2Proof.Machine.execRequeue p tag number selector s
  | .purge p tag number => Sys2Proof.Machine.execPurge p tag number s
  | .setStore p tag auto timeout => Sys2Proof.Machine.execSetStore p tag auto timeout s
  | .clearStore p tag => Sys2Proof.Machine.execClearStore p tag s
  | .clearCounters p tag => Sys2Proof.Machine.execClearCounters p tag s
  | .setAnnunciator p tag an0 an1 an2 an3 => Sys2Proof.Machine.execSetAnnunciator p tag an0 an1 an2 an3 s
  | .grant => Sys2Proof.Machine.execGrant s
  | .storeClockTick => Sys2Proof.Machine.execStoreClockTick s
  | .openTimeoutExpiry p => Sys2Proof.Machine.execOpenTimeoutExpiry p s
  | .deadlineExpiry p number index => Sys2Proof.Machine.execDeadlineExpiry p number index s
  | .holdEnd number index => Sys2Proof.Machine.execHoldEnd number index s
  | .decay entry port => Sys2Proof.Machine.execDecay entry port s
  | .receiveCharacter p b => Sys2Proof.Machine.execReceiveCharacter p b s
  | .framingError p => Sys2Proof.Machine.execFramingError p s
  | .lineBreak p => Sys2Proof.Machine.execLineBreak p s
  | .frameGapExpiry p => Sys2Proof.Machine.execFrameGapExpiry p s
  | .replySent p => Sys2Proof.Machine.execReplySent p s
  | .mainPowerApplied straps => Sys2Proof.Machine.execMainPowerApplied straps s
  | .resetAsserted straps => Sys2Proof.Machine.execResetAsserted straps s
  | .mainPowerLost => Sys2Proof.Machine.execMainPowerLost s
  | .backupSupplyLost => Sys2Proof.Machine.execBackupSupplyLost s
  | .startUpEnd resetHeld => Sys2Proof.Machine.execStartUpEnd resetHeld s
  | .lineReturnsToMark p => Sys2Proof.Machine.execLineReturnsToMark p s

end Sys2Proof.Machine
end

