-- ==== Sys2Proof/Safety.lean ====
section
/-! DEFINITION. The terms in which statements about the part are made: when a port is free to be served, what an answer is, what stands
behind the lines, how the lines follow an event, and the invariants. -/
namespace Sys2Proof.Machine

/-! ### Lines and replies -/

/-- A port that is heard and has no request in service: the next frame completed there is served at once (R162). -/
def State.freeAt (s : State) (p : Port) : Bool := s.hears p && (s.serviceOf p).isNone

/-- The state behind the lines and the outputs: with the Port Units and the output levels left out of account. Two states with the same
`behind` agree in every other field. -/
def State.behind (s : State) : State :=
  { s with units := .same (idleUnit .off), attention := .same false, annOut := ⟨false, false, false, false⟩ }

/-- The unit of a port is as it was, but that an ASK that waits there may have had its reply built. -/
def State.lineFollows (t s : State) (q : Port) : Prop :=
  (t.units.get q) = { s.units.get q with service := t.closeAsk q (s.serviceOf q) }

/-- The outputs agree with the sets and the conditions they follow (R173, R175). -/
def State.outputsAgree (s : State) : Prop :=
  (∀ p, s.attention.get p = s.attentionOf p) ∧ s.annOut = s.annFns.map fun f => s.inService && s.annHolds f

/-- `t` follows `s` by the service of the frame `f` at port `p`, answered with a result and its fields: the reply stands at the port,
every other line is as it was, and the outputs agree. -/
def State.answers (t s : State) (p : Port) (f : Frame) (r : Result) (fields : List Byte) : Prop :=
  t.units.get p = { s.units.get p with service := some (.replying f (replyFrame f r fields) 0) }
    ∧ (∀ q, q ≠ p → t.lineFollows s q) ∧ t.outputsAgree

/-- `t` follows `s` by an event that is no request: every line is as it was, but for ASK replies that fall due, and the outputs agree. -/
def State.follows (t s : State) : Prop := (∀ q, t.lineFollows s q) ∧ t.outputsAgree

/-- `t` follows `s` by an event on the line of port `p` that leaves its Port Unit as `u`. -/
def State.lineEvent (t s : State) (p : Port) (u : PortUnit) : Prop :=
  t.units.get p = { u with service := t.closeAsk p u.service } ∧ (∀ q, q ≠ p → t.lineFollows s q) ∧ t.outputsAgree

/-- Characters received one after another at a port. -/
def receiveAll (p : Port) : List Byte → State → Host.Outcome State Fault Refusal
  | [], s => .next s
  | b :: bs, s =>
    match exec (.receiveCharacter p b) s with
    | .next t => receiveAll p bs t
    | .fault r => .fault r
    | .refused r => .refused r

/-- The characters of a request frame: start mark, length, kind, tag, fields (R184). -/
def onLine (f : Frame) : List Byte := Config.startMark :: BitVec.ofNat 8 (2 + f.fields.length) :: f.kind :: f.tag :: f.fields

/-- The requests that read the part and change none of it (R53, R95, R145). -/
def readingKinds : List Byte := [0x01, 0x04, 0x05, 0x06, 0x07, 0x08, 0x09, 0x0A, 0x0B]

/-- The status sets with one kind raised at one port (R169). -/
def State.statusWith (s : State) (k : EventKind) (p : Port) : PerPort EventSet := s.status.set p (s.status.get p ||| eventBit k)

/-- The status sets with one kind raised at every port of a class. -/
def State.statusAt (s : State) (k : EventKind) (who : Port → Bool) : PerPort EventSet :=
  .build fun p => if who p then s.status.get p ||| eventBit k else s.status.get p

/-- The status sets after an event that leaves the store low or not: STORE_LOW is raised at the consoles if it has become low (R13). -/
def State.statusIfLow (s : State) (low : Bool) : PerPort EventSet :=
  if low && !s.prevLow then s.statusAt .storeLow fun p => s.roles.get p == .console else s.status

/-- The messages of the store hold different local numbers (R6). -/
def State.numbersDistinct (s : State) : Prop := (s.store.map Message.number).Nodup

/-- The roles that may send a request of a kind (the first table of R163). -/
def sendersOf (kind : Byte) : List Role :=
  if kind.toNat < 0x20 then [.console, .intake, .channel]
  else if kind.toNat < 0x28 then [.channel]
  else if kind.toNat < 0x30 then [.console, .intake]
  else [.console]

/-! ### Turns in the rotation (R103, R104) -/

/-- The place of a key in a ring read once round from the key after a pointer: the keys above the pointer come first. -/
def turnAfter (ptr : Option Nat) (key : Nat) : Nat :=
  match ptr with
  | some j => if j < key then key else key + 7
  | none => key

/-- The key in the first-level ring of the member that a CHANNEL port belongs to: its own number in tier A, 6 in tier B. -/
def State.firstKey (s : State) (p : Port) : Nat := if s.dispatch.tiers.get p = .a then portNumber p else 6

/-- `p` stands before `q` in the rotation order: its member has the earlier turn, or in tier B it has the earlier turn itself. -/
def State.turnsBefore (s : State) (p q : Port) : Prop :=
  turnAfter s.firstPtr (s.firstKey p) < turnAfter s.firstPtr (s.firstKey q)
    ∨ s.firstKey p = s.firstKey q
      ∧ turnAfter (s.tierBPtr.map portNumber) (portNumber p) < turnAfter (s.tierBPtr.map portNumber) (portNumber q)

/-! ### Changes of one copy -/

/-- `t` has the copy of `n` and `i` as given, its message FILED or CLOSED as its copies say (R5), and every other message as `s` has it. -/
def State.copyBecomes (t s : State) (n i : Nat) (c : Copy) : Prop :=
  (∀ k, k ≠ n → t.findMsg k = s.findMsg k)
    ∧ t.findMsg n = (s.findMsg n).map fun m => Message.rephase s.clock { m with copies := m.copies.set i c }

/-- The counters of one port changed. -/
def State.countersWith (s : State) (p : Port) (f : Counters → Counters) : PerPort Counters := s.counters.set p (f (s.counters.get p))

/-- The list of one port without its entry for a copy. -/
def State.listsWithout (s : State) (p : Port) (n i : Nat) : PerPort (List Entry) :=
  s.lists.set p ((s.lists.get p).filter fun e => !(e.number == n && e.index == i))

/-- The words of a body: its maximal runs of bytes that are not separators (R33). -/
def wordsOf (body : List Byte) : List (List Byte) := (body.splitOnP isSeparator).filter fun w => !w.isEmpty

/-! ### Invariants -/

/-- Every port's status set and enable set hold kinds of its role's routed set alone (R168, R170). -/
def State.eventsRouted (s : State) : Prop :=
  ∀ p, s.status.get p &&& ~~~routedSet (s.roles.get p) = 0 ∧ s.enable.get p &&& ~~~routedSet (s.roles.get p) = 0

/-- The law of the hand-off lists (R121): no list holds more than four entries, counted with the ask that stands at a CHANNEL port, and a
CHANNEL port in CLOSED or LAPSED has an empty list. -/
def State.listsInLaw (s : State) : Prop :=
  ∀ p, (s.lists.get p).length ≤ Config.listMax
    ∧ (s.isChannel p = true → (s.lists.get p).length + (s.channels.get p).state.count ≤ Config.listMax)
    ∧ (s.isChannel p = true → (s.channels.get p).state = .closed ∨ (s.channels.get p).state = .lapsed → s.lists.get p = [])

/-- The law of the Traffic Store's numbers and keys: at most 128 messages, in strictly rising local number from 1 to 9,999, the duplicate
table holding exactly one key for each message, the last-assigned number in range, and, in service, the previous store-low condition the
present one (R3, R6, R7, R13, R39). -/
def State.storeInLaw (s : State) : Prop :=
  s.store.length ≤ Config.slots
    ∧ (s.store.map Message.number).Pairwise (· < ·)
    ∧ (∀ m ∈ s.store, 1 ≤ m.number ∧ m.number ≤ Config.numberMax)
    ∧ s.dupTable.Perm (s.store.map Message.key)
    ∧ s.lastNumber ≤ Config.numberMax
    ∧ (s.inService = true → s.prevLow = s.low)

/-- The keys: the table and the ring hold each key once and none in common, and the ring at most 64 (R39, R40). -/
def State.keysInLaw (s : State) : Prop :=
  s.dupTable.Nodup ∧ s.ring.Nodup ∧ s.ring.length ≤ Config.ringMax ∧ ∀ k ∈ s.ring, k ∉ s.dupTable

/-- A message: 1 to 8 copies, a chain of as many blocks as its body needs, and copies as its state says: none with a state or a mark while OPEN, each with a state
and some non-terminal while FILED, each terminal while CLOSED (R4, R5, R9). -/
def Message.inLaw (m : Message) : Prop :=
  1 ≤ m.copies.length ∧ m.copies.length ≤ 8 ∧ m.body.length ≤ Config.bodyMax ∧ m.chain.length = (m.body.length + 31) / 32
    ∧ (m.isOpen = true → ∀ c ∈ m.copies, c.state = none ∧ c.attempts = 0 ∧ c.uncertain = false ∧ c.pinned = none)
    ∧ (m.isFiled = true → (∀ c ∈ m.copies, c.state ≠ none) ∧ ∃ c ∈ m.copies, c.live = true)
    ∧ (m.isClosed = true → ∀ c ∈ m.copies, c.terminal = true)

/-- The body pool: every chain is of blocks of the pool, and no block stands in two places (R9). -/
def State.blocksInLaw (s : State) : Prop :=
  (s.store.flatMap Message.chain).Nodup ∧ ∀ m ∈ s.store, ∀ b ∈ m.chain, b < Config.blocks

/-- The lodge contexts: each names an OPEN message that its port is lodging, and while main power is present every OPEN message is named by the
context of its port (R23). -/
def State.lodgesInLaw (s : State) : Prop :=
  (∀ p l, s.lodges.get p = some l → ∃ m ∈ s.store, m.number = l.number ∧ m.phase = .opened ∧ m.lodgedAt = p)
    ∧ (s.powered = true → ∀ m ∈ s.store, m.phase = .opened → ∃ l, s.lodges.get m.lodgedAt = some l ∧ l.number = m.number)

/-- The Station Book: 64 entries with entry 0 in use, an entry in use wherever a copy or the filter of a standing ask names one, and each waiting
count the number of non-terminal copies for its station (R44, R48, R57). -/
def State.bookInLaw (s : State) : Prop :=
  s.book.length = Config.entries ∧ (s.station 0).isSome = true
    ∧ (∀ m ∈ s.store, ∀ c ∈ m.copies, (s.station c.station).isSome = true)
    ∧ (∀ p n f, s.isChannel p = true → (s.channels.get p).state = .asking n (some f) → (s.station f).isSome = true)
    ∧ ∀ e st, s.station e = some st → st.waiting = (s.store.map fun m => m.copies.countP fun c => c.live && c.station == e).sum

/-- The entries of the hand-off lists: each copy stands at most once in a list, its entry's mark is set exactly while the copy is WITHDRAWING, it has at most
two extensions, and while main power is present every TAKEN or WITHDRAWING copy has an entry in its holder's list (R63, R121, R130). -/
def State.entriesInLaw (s : State) : Prop :=
  ∀ p, ((s.lists.get p).map fun e => (e.number, e.index)).Nodup
    ∧ (∀ e ∈ s.lists.get p, e.extensions ≤ 2 ∧ ∃ c, s.copyAt e.number e.index = some c
        ∧ c.state = some (if e.withdrawing then .withdrawing p else .taken p))
    ∧ (s.powered = true → ∀ m ∈ s.store, ∀ i c, m.copies[i]? = some c → c.holder = some p →
        ∃ e ∈ s.lists.get p, e.number = m.number ∧ e.index = i)

/-- The attempts: the limits are 1 to 15, no copy has more than 15 attempts, and a copy that waits or is held has fewer than its limit
(R68, R69, R140). -/
def State.attemptsInLaw (s : State) : Prop :=
  (∀ prec, 1 ≤ s.limit prec ∧ s.limit prec ≤ 15)
    ∧ ∀ m ∈ s.store, ∀ c ∈ m.copies, c.attempts ≤ 15 ∧ (c.idle = true → c.attempts < s.limit m.prec)

/-- The affinity holds: while main power is present, a copy is HELD_FOR a port only while that is a CHANNEL port in READY or ASKING under NONE or STEP
(R115). -/
def State.holdsInLaw (s : State) : Prop :=
  s.powered = true → ∀ m ∈ s.store, ∀ c ∈ m.copies, ∀ k ends, c.state = some (.heldFor k ends) → s.mayHold k = true

/-- The law of the store, its keys, messages, blocks, lodgings, stations, entries, attempts and holds, which stand together. -/
def State.wholeInLaw (s : State) : Prop :=
  s.storeInLaw ∧ s.keysInLaw ∧ (∀ m ∈ s.store, m.inLaw) ∧ s.blocksInLaw ∧ s.lodgesInLaw ∧ s.bookInLaw ∧ s.entriesInLaw
    ∧ s.attemptsInLaw ∧ s.holdsInLaw

end Sys2Proof.Machine
end

