-- ==== Sys2Proof/Certificates/Slice0/Obligations.lean ====
section
/-! DEFINITION. The statements about the part. Each docstring names the rules that a statement formalises, or says that it is derived and
names the choice of the model that it rests on. -/

section

open Sys2Proof Sys2Proof.Machine

/-! ### The queue and the lines -/

/-- One step is the command at the front of the queue, run with the rest of the queue. On an empty queue one character time passes on the
lines: every port that is heard sends one byte of its reply in progress, the last excepted, and nothing else changes; that clause is the model's choice,
log entries 7 and 9 (R155, R156). -/
def Obligations.StepRunsTheFrontCommand : Prop :=
  (∀ (s : State) (c : Instr) (rest : List Instr), s.pending = c :: rest → step s = exec c { s with pending := rest })
    ∧ ∀ s : State, s.pending = [] → ∃ t, step s = .next t ∧ t = { s with units := t.units } ∧ ∀ q,
        (∀ f reply gone, s.hears q = true → s.serviceOf q = some (.replying f reply gone) → gone + 1 < reply.length →
          t.units.get q = { s.units.get q with service := some (.replying f reply (gone + 1)) })
        ∧ (s.hears q = false ∨ (∀ f reply gone, s.serviceOf q = some (.replying f reply gone) → reply.length ≤ gone + 1) →
          t.units.get q = s.units.get q)

/-- Every command is answered by a next state, and leaves the queue alone. -/
def Obligations.EveryCommandAnswersAndLeavesTheQueue : Prop :=
  ∀ (c : Instr) (s : State), ∃ t, exec c s = .next t ∧ t.pending = s.pending

/-- A frame decodes to a request exactly when it is the frame of that request and the request is well formed: no bit of a frame is dropped,
and no two frames carry one request (R184). -/
def Obligations.FramesAndRequestsCorrespond : Prop :=
  ∀ (p : Port) (f : Frame) (i : Instr), decodeFrame p f = some i ↔ i.toFrame = some (p, f) ∧ i.wellFormed = true

/-- The characters of a request's frame, received one after another at a hunting receiver of a part whose outputs and ASK replies are up to
date, do exactly what the command does (R157, R158, R162). That a command stands for its frame's arrival is log entry 2. -/
def Obligations.ReceivingAFrameIsItsCommand : Prop :=
  ∀ (i : Instr) (p : Port) (f : Frame) (s : State), i.wellFormed = true → i.toFrame = some (p, f) → s.hears p = true →
    (s.units.get p).receiver = .hunting → s.finish = s → receiveAll p (onLine f) s = exec i s

/-- A frame that arrives at a port that is not heard is lost. At a port with a request in service it is held; with one held too it is overrun:
discarded, LINK_FAULT raised, counted, the last fault OVERRUN. When the last byte of a reply has gone, service ends, and a held frame becomes the
request in service in the same event: one that passes the tests of decoding does what its command does at the port now free, one that fails them is
refused with the result of the first that it fails. That a request command is its frame's arrival is the model's choice, log entry 2, and so is that the
end of a reply is taken wherever the count of its sent bytes stands, log entry 9 (R162, R163, R165, R166). -/
def Obligations.FramesAreHeldOverrunAndTaken : Prop :=
  (∀ (i : Instr) (p : Port) (f : Frame) (s : State), i.toFrame = some (p, f) →
     (s.hears p = false → exec i s = .next s)
     ∧ (s.hears p = true → (s.serviceOf p).isSome = true → (s.units.get p).held = none →
         ∃ t, exec i s = .next t ∧ t.behind = s.behind ∧ t.lineEvent s p { s.units.get p with held := some f })
     ∧ (s.hears p = true → (s.serviceOf p).isSome = true → (s.units.get p).held.isSome = true →
         ∃ t, exec i s = .next t
           ∧ t.behind = { s with
               status := s.statusWith .linkFault p
               counters := s.countersWith p fun c => { c with discarded := min (c.discarded + 1) 65535 } }.behind
           ∧ t.lineEvent s p { s.units.get p with lastFault := .overrun }))
  ∧ (∀ (p : Port) (s : State) (f : Frame) (b : List Byte) (gone : Nat), s.hears p = true → s.serviceOf p = some (.replying f b gone) →
       ((s.units.get p).held = none →
         ∃ t, exec (.replySent p) s = .next t ∧ t.behind = s.behind ∧ t.lineEvent s p { s.units.get p with service := none })
       ∧ (∀ (i : Instr) (g : Frame), i.wellFormed = true → i.toFrame = some (p, g) → (s.units.get p).held = some g →
           exec (.replySent p) s = exec i (s.updUnit p fun u => { u with service := none, held := none }))
       ∧ ∀ g : Frame, (s.units.get p).held = some g →
           let refused := fun r : Result => ∃ t, exec (.replySent p) s = .next t ∧ t.behind = s.behind
             ∧ t.answers (s.updUnit p fun u => { u with service := none, held := none }) p g r []
           (isRequestKind g.kind = false → refused .badKind)
           ∧ (isRequestKind g.kind = true → s.roles.get p ∉ sendersOf g.kind → refused .notRole)
           ∧ (isRequestKind g.kind = true → s.roles.get p ∈ sendersOf g.kind → fieldLengthOk g.kind g.fields.length = false →
               refused .badField))

/-- The three tests of decoding, in their order, for a frame that a free port has just received whole: BAD_KIND, NOT_ROLE, BAD_FIELD for the
length. The reply carries no fields, and nothing behind the lines changes. The kinds and the field lengths that the tests allow are those of
the table of requests (R163, R164, R184). -/
def Obligations.DecodingTestsComeInOrder : Prop :=
  (∀ (p : Port) (s : State) (n : Nat) (got : List Byte) (b kind tag : Byte) (fields : List Byte),
     s.freeAt p = true → (s.units.get p).receiver = .inFrame (some n) got → n = got.length + 1 → got ++ [b] = kind :: tag :: fields →
     let refused := fun r : Result => ∃ t, exec (.receiveCharacter p b) s = .next t ∧ t.behind = s.behind
       ∧ t.answers (s.setReceiver p .hunting) p ⟨kind, tag, fields⟩ r []
     (isRequestKind kind = false → refused .badKind)
     ∧ (isRequestKind kind = true → s.roles.get p ∉ sendersOf kind → refused .notRole)
     ∧ (isRequestKind kind = true → s.roles.get p ∈ sendersOf kind → fieldLengthOk kind fields.length = false → refused .badField))
  ∧ (let table : List (Byte × Nat) := [
       (0x01, 0), (0x02, 2), (0x03, 2), (0x04, 3), (0x05, 4), (0x06, 5), (0x07, 1), (0x08, 7), (0x09, 0), (0x0A, 4),
       (0x0B, 1), (0x12, 0), (0x13, 0), (0x18, 11), (0x19, 3), (0x20, 0), (0x21, 0), (0x22, 8), (0x23, 0), (0x24, 8),
       (0x28, 0), (0x30, 7), (0x31, 15), (0x32, 7), (0x33, 6), (0x34, 15), (0x35, 13), (0x36, 2), (0x37, 1), (0x38, 3),
       (0x39, 4), (0x3A, 3), (0x3B, 2), (0x3C, 3), (0x3D, 0), (0x3E, 0), (0x3F, 4)]
     (∀ k : Byte, isRequestKind k = true ↔ k = 0x10 ∨ k = 0x11 ∨ ∃ n, (k, n) ∈ table)
     ∧ (∀ x ∈ table, ∀ n, fieldLengthOk x.1 n = true ↔ n = x.2)
     ∧ (∀ n, fieldLengthOk 0x10 n = true ↔ ∃ a, 1 ≤ a ∧ a ≤ 8 ∧ n = 12 + 7 * a)
     ∧ ∀ n, fieldLengthOk 0x11 n = true ↔ 1 ≤ n ∧ n ≤ 48)

/-- The link faults of a receiver in IN_FRAME: each discards the frame without a reply, raises LINK_FAULT, counts the frame, records its
cause and sends the receiver where the table says; the request in service and the held frame go on (R160). -/
def Obligations.LinkFaultsFollowTheTable : Prop :=
  ∀ (p : Port) (s : State) (length : Option Nat) (got : List Byte),
    s.hears p = true → (s.units.get p).receiver = .inFrame length got →
    let faults := fun (i : Instr) (cause : LinkCause) (after : Receiver) => ∃ t, exec i s = .next t
      ∧ t.behind = { s with
          status := s.statusWith .linkFault p
          counters := s.countersWith p fun c => { c with discarded := min (c.discarded + 1) 65535 } }.behind
      ∧ t.lineEvent s p { s.units.get p with receiver := after, lastFault := cause }
    faults (.frameGapExpiry p) .gap .hunting
    ∧ faults (.framingError p) .framing (.resync false)
    ∧ faults (.lineBreak p) .lineBreak (.resync true)
    ∧ (length = none → ∀ b : Byte,
        (b.toNat ≤ 1 → faults (.receiveCharacter p b) .runt .hunting)
        ∧ (96 < b.toNat → faults (.receiveCharacter p b) .length (.resync false)))

/-- The arrivals that are no fault and complete no frame: the start mark, the length and the contents are taken, anything else in HUNTING is
discarded, RESYNC waits for a quiet frame gap, counted from the return to mark after a break (R157, R158, R159, R161). -/
def Obligations.ReceiverMovesWithoutAFault : Prop :=
  ∀ (p : Port) (s : State) (r : Receiver), s.hears p = true → (s.units.get p).receiver = r →
    let moves := fun (i : Instr) (after : Receiver) => ∃ t, exec i s = .next t ∧ t.behind = s.behind
      ∧ t.lineEvent s p { s.units.get p with receiver := after }
    (r = .hunting →
      moves (.receiveCharacter p 0x5A) (.inFrame none []) ∧ (∀ b : Byte, b ≠ 0x5A → moves (.receiveCharacter p b) .hunting)
      ∧ moves (.framingError p) (.resync false) ∧ moves (.lineBreak p) (.resync true) ∧ moves (.frameGapExpiry p) .hunting)
    ∧ (∀ got, r = .inFrame none got → ∀ b : Byte, 2 ≤ b.toNat → b.toNat ≤ 96 →
        moves (.receiveCharacter p b) (.inFrame (some b.toNat) []))
    ∧ (∀ n got, r = .inFrame (some n) got → got.length + 1 < n → ∀ b : Byte,
        moves (.receiveCharacter p b) (.inFrame (some n) (got ++ [b])))
    ∧ (r = .resync false →
        (∀ b : Byte, moves (.receiveCharacter p b) (.resync false)) ∧ moves (.framingError p) (.resync false)
        ∧ moves (.lineBreak p) (.resync true) ∧ moves (.frameGapExpiry p) .hunting)
    ∧ (r = .resync true → moves (.lineReturnsToMark p) (.resync false) ∧ moves (.lineBreak p) (.resync true))

/-- A request refused at a free port changes nothing behind the lines. DUPLICATE is the one exception (section 9.8). -/
def Obligations.RefusalsChangeNothing : Prop :=
  ∀ (i : Instr) (p : Port) (f : Frame) (s t : State) (r : Result) (fields : List Byte) (gone : Nat),
    i.toFrame = some (p, f) → s.freeAt p = true → exec i s = .next t →
    t.serviceOf p = some (.replying f (replyFrame f r fields) gone) → r ≠ .ok → r ≠ .lateAccepted → r ≠ .duplicate →
    t.behind = s.behind

/-! ### Reading -/

/-- READ HEADER: the refusals of R146, and for a message that the number names the 46 bytes of its header, then the 32 of the copy at the
first index and of the one after it, laid out field by field (R146, R147, R186). -/
def Obligations.HeaderReplyCarriesTwoCopies : Prop :=
  ∀ (p : Port) (tag first : Byte) (number : Half) (s : State), s.freeAt p = true →
    let answered := fun (r : Result) (fields : List Byte) => ∃ t, exec (.readHeader p tag number first) s = .next t
      ∧ t.behind = s.behind ∧ t.answers s p ⟨0x04, tag, [hiByte number, loByte number, first]⟩ r fields
    let header := fun (m : Message) (i : Nat) =>
      be32 s.clock ++ be16 m.number ++ be8 (phaseCode m.phase) ++ be8 (precCode m.prec) ++ m.origin ++ be16 m.serial ++ be16 m.wordCheck
        ++ be8 (portNumber m.lodgedAt) ++ be16 m.body.length ++ be8 m.chain.length ++ be32 m.openStamp ++ be8 m.copies.length
        ++ (match m.phase with
            | .opened => be8 0 ++ be16 0 ++ be8 0 ++ be32 0 ++ be32 0 ++ be32 0
            | .filed f => be8 1 ++ be16 f.wordCount ++ be8 f.checkDiffers.toNat ++ be32 f.filedStamp ++ be32 f.sequence ++ be32 0
            | .closed f t => be8 3 ++ be16 f.wordCount ++ be8 f.checkDiffers.toNat ++ be32 f.filedStamp ++ be32 f.sequence ++ be32 t)
        ++ be8 (if i + 2 < m.copies.length then i + 2 else 0xFF) ++ be8 (min 2 (m.copies.length - i))
    let blank : List Byte := List.replicate 7 0x20
    let copy := fun (c : Copy) (i : Nat) =>
      be8 i ++ be8 c.station ++ (match s.station c.station with | some st => st.call | none => blank)
        ++ be8 (match c.state with | some x => copyCode x | none => 0xFF) ++ be8 c.attempts
        ++ be8 (c.uncertain.toNat + 2 * match c.state with
            | some (.delivered _ _ after) | some (.relayed _ _ after _) => after.toNat
            | _ => 0)
        ++ (match c.state with
            | some (.heldFor k t) =>
              be8 (4 + 2 * c.pinned.isSome.toNat) ++ be8 0xFF ++ bePort c.pinned ++ be8 (portNumber k) ++ be32 t ++ be8 0xFF ++ be32 0 ++ blank
            | some (.taken k) | some (.withdrawing k) =>
              be8 (1 + 2 * c.pinned.isSome.toNat) ++ be8 (portNumber k) ++ bePort c.pinned ++ be8 0xFF ++ be32 0 ++ be8 0xFF ++ be32 0 ++ blank
            | some (.delivered k t _) =>
              be8 (8 + 2 * c.pinned.isSome.toNat) ++ be8 0xFF ++ bePort c.pinned ++ be8 0xFF ++ be32 0 ++ be8 (portNumber k) ++ be32 t ++ blank
            | some (.relayed k t _ relay) =>
              be8 (24 + 2 * c.pinned.isSome.toNat) ++ be8 0xFF ++ bePort c.pinned ++ be8 0xFF ++ be32 0 ++ be8 (portNumber k) ++ be32 t ++ relay
            | _ => be8 (2 * c.pinned.isSome.toNat) ++ be8 0xFF ++ bePort c.pinned ++ be8 0xFF ++ be32 0 ++ be8 0xFF ++ be32 0 ++ blank)
    (number.toNat = 0 ∨ 9999 < number.toNat ∨ 7 < first.toNat → answered .badField [])
    ∧ (1 ≤ number.toNat → number.toNat ≤ 9999 → first.toNat ≤ 7 → s.findMsg number.toNat = none → answered .noSuch [])
    ∧ ∀ m, 1 ≤ number.toNat → number.toNat ≤ 9999 → first.toNat ≤ 7 → s.findMsg number.toNat = some m →
        (m.copies.length ≤ first.toNat → answered .noSuch [])
        ∧ ∀ c, m.copies[first.toNat]? = some c →
            (m.copies[first.toNat + 1]? = none →
              answered .ok (header m first.toNat ++ copy c first.toNat))
            ∧ ∀ d, m.copies[first.toNat + 1]? = some d →
                answered .ok (header m first.toNat ++ (copy c first.toNat ++ copy d (first.toNat + 1)))

/-- READ BODY: the refusals of R148 in their order; a served read returns 48 bytes from the offset, or what is left, with END exactly when
they reach the end (R148). -/
def Obligations.BodyIsReadInChunks : Prop :=
  ∀ (p : Port) (tag : Byte) (number offset : Half) (s : State), s.freeAt p = true →
    let answered := fun (r : Result) (fields : List Byte) => ∃ t, exec (.readBody p tag number offset) s = .next t
      ∧ t.behind = s.behind ∧ t.answers s p ⟨0x05, tag, [hiByte number, loByte number, hiByte offset, loByte offset]⟩ r fields
    (number.toNat = 0 ∨ 9999 < number.toNat → answered .badField [])
    ∧ (1 ≤ number.toNat → number.toNat ≤ 9999 → s.findMsg number.toNat = none → answered .noSuch [])
    ∧ ∀ m, 1 ≤ number.toNat → number.toNat ≤ 9999 → s.findMsg number.toNat = some m →
        (m.phase = .opened → answered .state [])
        ∧ (m.phase ≠ .opened → m.body.length < offset.toNat → answered .badField [])
        ∧ ∀ before chunk after : List Byte, m.phase ≠ .opened → m.body = before ++ chunk ++ after → before.length = offset.toNat →
            chunk.length = 48 ∨ chunk.length ≤ 48 ∧ after = [] →
            answered .ok (be32 s.clock ++ be16 offset.toNat ++ be16 m.body.length ++ be32 m.sequence
              ++ be8 (if after = [] then 1 else 0) ++ chunk)

/-- LIST TRAFFIC: the matching messages above the start-after number, in the order of the store (rising local number, by the law of the store),
at most eight, with their count and the more flag (R149, R150). -/
def Obligations.TrafficIsListedEightAtATime : Prop :=
  ∀ (p : Port) (tag : Byte) (after : Half) (states precs copies : Byte) (s : State), s.freeAt p = true →
    let f : Frame := ⟨0x06, tag, [hiByte after, loByte after, states, precs, copies]⟩
    let answered := fun (r : Result) (fields : List Byte) => ∃ t, exec (.listTraffic p tag after states precs copies) s = .next t
      ∧ t.behind = s.behind ∧ t.answers s p f r fields
    let found := s.store.filter fun m => decide (after.toNat < m.number)
      && (states == 0 || states.getLsbD (phaseCode m.phase)) && (precs == 0 || precs.getLsbD (precCode m.prec))
      && (copies == 0 || m.copies.any fun c => match c.state with | some x => copies.getLsbD (copyCode x) | none => false)
    (9999 < after.toNat ∨ 8 ≤ states.toNat ∨ 16 ≤ precs.toNat → answered .badField [])
    ∧ (after.toNat ≤ 9999 → states.toNat < 8 → precs.toNat < 16 →
        answered .ok (be32 s.clock ++ be8 (min 8 found.length) ++ be8 (if 8 < found.length then 1 else 0)
          ++ (found.take 8).flatMap fun m => be16 m.number ++ be8 (phaseCode m.phase) ++ be8 (precCode m.prec)))

/-- The reports: READ STATION and FIND STATION with their refusals and the one station record that both return, STATUS, READ COUNTERS and READ
HAND-OFF LIST, from the state as it stands, each reply laid out field by field; the codes that requests and replies carry, and the form of a reply (R53,
R151, R152, R153, R164, R184, R185, R186, R187). -/
def Obligations.StationsPortsAndListsAreReported : Prop :=
  (∀ (p : Port) (tag : Byte) (s : State), s.freeAt p = true →
     let record := fun (e : Nat) (st : Station) =>
       be8 e ++ st.call ++ be8 (match st.kind with | .auto => 1 | .set => 2) ++ be32 st.created
         ++ (Port.all.flatMap fun k => be8 (st.grades.get k).value ++ be32 (st.grades.get k).touched)
         ++ be8 ((match st.affinity with | none => 0 | some a => if s.clock - a.stamp ≤ 1800 then 3 else 1)
             + if e == 0 || s.store.any (fun m => m.copies.any fun c => c.station == e) || Port.all.any (fun k => s.roles.get k == .channel
                 && match (s.channels.get k).state with | .asking _ (some f) => f == e | _ => false) then 4 else 0)
         ++ (match st.affinity with | none => be8 0xFF ++ be32 0 | some a => be8 (portNumber a.port) ++ be32 a.stamp)
         ++ be8 st.waiting
     (∀ entry : Byte,
       let answered := fun (r : Result) (fields : List Byte) => ∃ t, exec (.readStation p tag entry) s = .next t
         ∧ t.behind = s.behind ∧ t.answers s p ⟨0x07, tag, [entry]⟩ r fields
       (63 < entry.toNat → answered .badField [])
       ∧ (entry.toNat ≤ 63 → s.station entry.toNat = none → answered .noSuch [])
       ∧ ∀ st, entry.toNat ≤ 63 → s.station entry.toNat = some st → answered .ok (record entry.toNat st))
     ∧ ∀ field : List Byte, field.length = 7 →
       let answered := fun (r : Result) (fields : List Byte) => ∃ t, exec (.findStation p tag field) s = .next t
         ∧ t.behind = s.behind ∧ t.answers s p ⟨0x08, tag, field⟩ r fields
       (callOf field = none → answered .badField [])
       ∧ (∀ c, callOf field = some c → (∀ e st, s.station e = some st → st.call ≠ c) → answered .noSuch [])
       ∧ ∀ c e st, callOf field = some c → s.station e = some st → st.call = c →
           (∀ e' st', e' < e → s.station e' = some st' → st'.call ≠ c) → answered .ok (record e st))
  ∧ (∀ (p : Port) (tag : Byte) (s : State), s.freeAt p = true →
       let freeBlocks := 2048 - (s.store.map fun m => m.chain.length).sum
       let channel := s.channels.get p
       let grant := fun (e : Entry) (m : Message) (c : Copy) =>
         be16 e.number ++ be8 e.index ++ (match s.station c.station with | some st => st.call | none => List.replicate 7 0x20)
           ++ be8 (precCode m.prec) ++ be8 (c.uncertain.toNat + 2 * c.pinned.isSome.toNat + 4 * e.withdrawing.toNat) ++ be8 c.attempts
           ++ be8 e.extensions ++ be32 e.deadline ++ be16 m.body.length ++ be16 m.wordCheck
       (∃ t, exec (.status p tag) s = .next t ∧ t.behind = s.behind ∧ t.answers s p ⟨0x01, tag, []⟩ .ok
         (be8 (portNumber p) ++ be8 (roleCode (s.roles.get p)) ++ be32 s.clock
           ++ be8 (match s.firstEvent p with | some k => eventOrder k | none => 0) ++ be16 (s.status.get p).toNat ++ be16 (s.enable.get p).toNat
           ++ be8 (faultCode (s.units.get p).lastFault) ++ be8 (128 - s.store.length) ++ be16 freeBlocks
           ++ be8 ((if 128 - s.store.length ≤ 16 ∨ freeBlocks ≤ 256 then 1 else 0) + 2 * s.storeSet.autoPurge.toNat) ++ be16 s.storeSet.openTimeout
           ++ (match s.lodges.get p with | some l => be8 1 ++ be16 l.number ++ be32 l.deadline | none => be8 0 ++ be16 0 ++ be32 0)
           ++ be8 (s.lists.get p).length ++ be8 (match s.station 0 with | some st => st.waiting | none => 0) ++ be8 s.recovered
           ++ if s.roles.get p = .channel then
               be8 1 ++ be8 (chanCode channel.state) ++ be8 (adminCode (s.admin.get p)) ++ be8 channel.lapseCount
                 ++ (match channel.state with | .asking n f => be8 n ++ beEntry f | _ => be8 0 ++ be8 0xFF)
                 ++ be8 (match s.dispatch.tiers.get p with | .a => 0 | .b => 1) ++ be8 (s.dispatch.runs.get p)
             else 0 :: List.replicate 7 0xFF))
       ∧ (∃ t, exec (.readCounters p tag) s = .next t ∧ t.behind = s.behind
           ∧ t.answers s p ⟨0x09, tag, []⟩ .ok (be32 s.clock
             ++ (Port.all.flatMap fun k => be16 (s.counters.get k).delivered ++ be16 (s.counters.get k).relayed
               ++ be16 (s.counters.get k).noContact ++ be16 (s.counters.get k).returned ++ be16 (s.counters.get k).expiries
               ++ be16 (s.counters.get k).lapses ++ be16 (s.counters.get k).discarded)
             ++ be16 s.totals.lodged ++ be16 s.totals.duplicates ++ be16 s.totals.autoPurges))
       ∧ ∀ port : Byte,
         let answered := fun (r : Result) (fields : List Byte) => ∃ t, exec (.readHandOffList p tag port) s = .next t
           ∧ t.behind = s.behind ∧ t.answers s p ⟨0x0B, tag, [port]⟩ r fields
         (portOf port = none → answered .badField [])
         ∧ ∀ k, portOf port = some k →
             (s.roles.get k = .off → answered .badField [])
             ∧ (s.roles.get k ≠ .off → s.roles.get p ≠ .console → k ≠ p → answered .notRole [])
             ∧ (s.roles.get k ≠ .off → s.roles.get p = .console ∨ k = p →
                 answered .ok (be32 s.clock ++ be8 (portNumber k) ++ be8 (s.lists.get k).length
                   ++ (if s.roles.get k = .channel then
                         be8 (chanCode (s.channels.get k).state) ++ be8 (match (s.channels.get k).state with | .asking n _ => n | _ => 0)
                       else [0xFF, 0xFF])
                   ++ (s.lists.get k).flatMap fun e => match s.findMsg e.number, s.copyAt e.number e.index with
                     | some m, some c => grant e m c
                     | _, _ => [])))
  ∧ (Port.all.map portNumber = [0, 1, 2, 3, 4, 5] ∧ [.life, .priority, .welfare, .routine].map precCode = [0, 1, 2, 3]
       ∧ [.off, .console, .intake, .channel].map roleCode = [0, 1, 2, 3] ∧ [.none_, .hold, .step, .bar].map adminCode = [0, 1, 2, 3]
       ∧ [.none_, .gap, .framing, .lineBreak, .runt, .length, .overrun].map faultCode = [0, 1, 2, 3, 4, 5, 6]
       ∧ (∀ n f, [.closed, .ready, .asking n f, .lapsed].map chanCode = [0, 1, 2, 3])
       ∧ (∀ f g t, [.opened, .filed f, .closed g t].map phaseCode = [0, 1, 2])
       ∧ [Result.ok, .badKind, .badField, .notRole, .noSuch, .state, .full, .bookFull, .duplicate, .inUse, .barred, .lapsed, .notHeld, .lateAccepted,
           .already, .limit, .tooLong, .noOpen, .none_, .listNotEmpty].map resultCode
         = [0x00, 0x01, 0x02, 0x03, 0x04, 0x05, 0x06, 0x07, 0x08, 0x09, 0x0A, 0x0B, 0x0C, 0x0D, 0x0E, 0x0F, 0x10, 0x11, 0x12, 0x13]
       ∧ (let kinds : List EventKind := [.lifeFiled, .channelLapsed, .copyFailed, .withdrawn, .granted, .localWaiting, .openExpired, .storeLow,
             .duplicateSeen, .checkDiffers, .linkFault, .recovered]
          kinds.map eventOrder = [1, 2, 3, 4, 5, 6, 7, 8, 9, 10, 11, 12]
            ∧ kinds.map eventBit = [0x001, 0x002, 0x004, 0x008, 0x010, 0x020, 0x040, 0x080, 0x100, 0x200, 0x400, 0x800])
       ∧ [.off, .lifeOpen, .failedHeld, .lapsedAny, .storeLow, .noChannel, .on].map annFnCode = [0, 1, 2, 3, 4, 5, 6]
       ∧ (∀ b : Byte, precOf b = ([.life, .priority, .welfare, .routine] : List Prec)[b.toNat]?
           ∧ outcomeOf b = ([.delivered, .relayed, .noContact, .returned] : List ReportOutcome)[b.toNat]?
           ∧ adminOf b = ([.none_, .hold, .step, .bar] : List AdminMode)[b.toNat]?
           ∧ annFnOf b = ([.off, .lifeOpen, .failedHeld, .lapsedAny, .storeLow, .noChannel, .on] : List AnnFn)[b.toNat]?
           ∧ portOf b = Port.all[b.toNat]?)
       ∧ (∀ (f : Frame) (r : Result) (fields : List Byte),
           replyFrame f r fields = 0x5A :: BitVec.ofNat 8 (3 + fields.length) :: (f.kind ||| 0x80) :: f.tag :: resultCode r :: fields)
       ∧ ∀ k n a r, [.waiting, .heldFor k n, .taken k, .withdrawing k, .delivered k n a, .relayed k n a r, .failed, .cancelled].map copyCode
           = [0, 1, 2, 3, 4, 5, 6, 7])

/-- RANK QUERY: the tests of R95, and the values of R96 in their order, for any copy of a filed message and any port. -/
def Obligations.RankQueryShowsTheTerms : Prop :=
  ∀ (p : Port) (tag index port : Byte) (number : Half) (s : State), s.freeAt p = true →
    let answered := fun (r : Result) (fields : List Byte) => ∃ t, exec (.rankQuery p tag number index port) s = .next t
      ∧ t.behind = s.behind ∧ t.answers s p ⟨0x0A, tag, [hiByte number, loByte number, index, port]⟩ r fields
    (number.toNat = 0 ∨ 9999 < number.toNat ∨ 7 < index.toNat ∨ 5 < port.toNat → answered .badField [])
    ∧ ∀ k, 1 ≤ number.toNat → number.toNat ≤ 9999 → index.toNat ≤ 7 → portOf port = some k →
      (s.copyAt number.toNat index.toNat = none → answered .noSuch [])
      ∧ ∀ m c, s.findMsg number.toNat = some m → m.copies[index.toNat]? = some c →
          (m.phase = .opened → answered .state [])
          ∧ (m.phase ≠ .opened →
              let grade := if c.station = 0 then 0 else s.grade c.station k
              let age := min 999 ((s.clock - m.filedStamp) / 60)
              let aging := age * s.ranking.aging.get m.prec
              let penalty := c.attempts * s.ranking.penalty
              let fit := grade * s.ranking.fit
              let raw : Int := aging - penalty + fit
              answered .ok (be32 s.clock ++ be8 (precCode m.prec) ++ be8 c.code ++ be8 c.attempts ++ be8 grade
                ++ be8 (s.ranking.aging.get m.prec) ++ be8 s.ranking.penalty ++ be8 s.ranking.fit ++ be16 age ++ be16 aging
                ++ be16 penalty ++ be16 fit ++ be16 (BitVec.ofInt 16 raw).toNat
                ++ be8 (if raw < 0 ∨ 999 < raw then 1 else 0)
                ++ be16 (3000 - 1000 * precCode m.prec + (min 999 raw).toNat)))

/-! ### Ranking -/

/-- The rank of a copy lies in its precedence's band, and every copy of a higher precedence outranks every copy of a lower one, for the same
port at the same moment (R90). -/
def Obligations.RankStaysInItsBand : Prop :=
  (∀ (s : State) (m : Message) (c : Copy) (p : Port),
      rankBase m.prec ≤ (s.rankTerms m c p).rank ∧ (s.rankTerms m c p).rank ≤ rankBase m.prec + 999)
    ∧ ∀ (s : State) (m n : Message) (c d : Copy) (p : Port), precCode m.prec < precCode n.prec →
        (s.rankTerms n d p).rank < (s.rankTerms m c p).rank

/-- The raw score, its bounds where the settings, the attempts and the grade are in their ranges, the clamp with its flag, the bases and the
rank (R89). -/
def Obligations.RankIsBasePlusClampedScore : Prop :=
  ∀ (s : State) (m : Message) (c : Copy) (p : Port),
    let t := s.rankTerms m c p
    t.raw = (t.aging : Int) - t.penalty + t.fit
    ∧ (s.ranking.aging.get m.prec ≤ 15 → s.ranking.penalty ≤ 255 → s.ranking.fit ≤ 100 → c.attempts ≤ 15 →
        s.grade c.station p ≤ 3 → -3825 ≤ t.raw ∧ t.raw ≤ 15285)
    ∧ (t.clamped = true ↔ t.raw < 0 ∨ 999 < t.raw)
    ∧ (t.raw < 0 → t.rank = rankBase m.prec)
    ∧ (999 < t.raw → t.rank = rankBase m.prec + 999)
    ∧ (0 ≤ t.raw → t.raw ≤ 999 → (t.rank : Int) = rankBase m.prec + t.raw)
    ∧ rankBase .life = 3000 ∧ rankBase .priority = 2000 ∧ rankBase .welfare = 1000 ∧ rankBase .routine = 0

/-- The order of copies for one port: higher rank, then smaller filing sequence, then lower addressee index, then lower local number. It is
irreflexive, transitive and total between different copies, the highest-ranked copy of a list is one that no other stands before, and for
local copies the rank does not depend on the port (R91). -/
def Obligations.CopyOrderIsTotal : Prop :=
  ∀ (s : State) (p : Port),
    let ahead := fun x y : Cand => standsBefore (s.rankOf p x) x (s.rankOf p y) y = true
    (∀ x y, s.rankOf p y < s.rankOf p x → ahead x y)
    ∧ (∀ x y, s.rankOf p x = s.rankOf p y → x.msg.sequence < y.msg.sequence → ahead x y)
    ∧ (∀ x y, s.rankOf p x = s.rankOf p y → x.msg.sequence = y.msg.sequence → x.index < y.index → ahead x y)
    ∧ (∀ x y, s.rankOf p x = s.rankOf p y → x.msg.sequence = y.msg.sequence → x.index = y.index → x.msg.number < y.msg.number →
        ahead x y)
    ∧ (∀ x, ¬ ahead x x)
    ∧ (∀ x y z, ahead x y → ahead y z → ahead x z)
    ∧ (∀ x y, x.msg.number ≠ y.msg.number ∨ x.index ≠ y.index → ahead x y ∨ ahead y x)
    ∧ (∀ xs x, s.best p xs = some x → x ∈ xs ∧ ∀ y ∈ xs, ¬ ahead y x)
    ∧ (∀ xs, s.best p xs = none ↔ xs = [])
    ∧ ∀ x q, x.copy.station = 0 → s.rankOf p x = s.rankOf q x

/-! ### Dispatch and grants -/

/-- The Dispatch Unit has a grant to make exactly while a pair exists, and what it chooses is a pair, where the messages hold different local
numbers; every CHANNEL port stands exactly once in the rotation order, and no other port stands in it, and they stand there by their turns
(R101, R103, R104, R105). -/
def Obligations.GrantIsChosenExactlyFromPairs : Prop :=
  (∀ s : State, (s.choose = none ↔ ∀ k, s.pairsOf k = []) ∧ (s.numbersDistinct → ∀ c, s.choose = some c → c.cand ∈ s.pairsOf c.port))
  ∧ (∀ (s : State) (p : Port), s.rotationOrder.count p = (if s.roles.get p = .channel then 1 else 0)
       ∧ ∀ q, s.roles.get p = .channel → s.roles.get q = .channel →
           (s.rotationOrder.idxOf p < s.rotationOrder.idxOf q ↔ s.turnsBefore p q))

/-- A pair is a channel that is open to grants and a copy that fits it: the seven conditions (R99). -/
def Obligations.PairsMeetTheSevenConditions : Prop :=
  ∀ (s : State) (k : Port) (x : Cand), x ∈ s.pairsOf k ↔
    (s.roles.get k = .channel ∧ ∃ count filter, (s.channels.get k).state = .asking count filter ∧ 0 < count
      ∧ (s.admin.get k = .none_ ∨ s.admin.get k = .step)
      ∧ (filter = none ∨ filter = some x.copy.station))
    ∧ x.msg ∈ s.store ∧ x.msg.copies[x.index]? = some x.copy
    ∧ (∃ f, x.msg.phase = .filed f) ∧ x.copy.station ≠ 0
    ∧ (x.copy.state = some .waiting ∨ ∃ ends, x.copy.state = some (.heldFor k ends))
    ∧ 1 ≤ s.grade x.copy.station k
    ∧ (x.copy.pinned = none ∨ x.copy.pinned = some k)
    ∧ x.copy.attempts < s.limit x.msg.prec

/-- The three steps of a choice. While any pair holds a LIFE copy the grant is a LIFE grant: the LIFE copy of the highest best rank, given to the
channel of the highest grade for its station among those that pair with it. With no LIFE pair, a streak below its run length whose channel pairs
with a copy for its station takes the grant, with that channel's highest-ranked copy for the station; the streak count goes up by 1 and the
pointers stay. With neither, the channel whose turn in the rotation comes first of those with a pair takes its highest-ranked copy (R105 to
R108). -/
def Obligations.LifeThenTheStreakThenTheRotation : Prop :=
  (∀ s : State, s.numbersDistinct → (∃ k, ∃ x ∈ s.pairsOf k, x.msg.prec = .life) →
     ∃ c, s.choose = some c ∧ c.step = .life ∧ c.cand ∈ s.pairsOf c.port ∧ c.cand.msg.prec = .life
       ∧ (∃ k₀, c.cand ∈ s.pairsOf k₀
           ∧ ∀ k x, x ∈ s.pairsOf k → x.msg.prec = .life → standsBefore (s.rankOf k x) x (s.rankOf k₀ c.cand) c.cand = false)
       ∧ ∀ k, c.cand ∈ s.pairsOf k → s.grade c.cand.copy.station k < s.grade c.cand.copy.station c.port
           ∨ s.grade c.cand.copy.station k = s.grade c.cand.copy.station c.port ∧ ¬ s.turnsBefore k c.port)
  ∧ (∀ (s : State) (k : Streak), (∀ q, ∀ x ∈ s.pairsOf q, x.msg.prec ≠ .life) → s.streak = some k →
       k.count < s.dispatch.runs.get k.port → (∃ x ∈ s.pairsOf k.port, x.copy.station = k.station) →
       ∃ c, s.choose = some c ∧ c.port = k.port ∧ c.step = .streak ∧ c.cand.copy.station = k.station
         ∧ (∀ x ∈ s.pairsOf k.port, x.copy.station = k.station →
             standsBefore (s.rankOf k.port x) x (s.rankOf k.port c.cand) c.cand = false)
         ∧ (s.inService = true → ∃ t, exec .grant s = .next t ∧ t.streak = some { k with count := k.count + 1 }
             ∧ t.firstPtr = s.firstPtr ∧ t.tierBPtr = s.tierBPtr))
  ∧ (∀ s : State, (∀ q, ∀ x ∈ s.pairsOf q, x.msg.prec ≠ .life) →
       (∀ k, s.streak = some k → s.dispatch.runs.get k.port ≤ k.count ∨ ∀ x ∈ s.pairsOf k.port, x.copy.station ≠ k.station) →
       (∃ k, s.pairsOf k ≠ []) →
       ∃ c, s.choose = some c ∧ c.step = .rotation (if s.dispatch.tiers.get c.port = .a then .one c.port else .tierB)
         ∧ c.cand ∈ s.pairsOf c.port
         ∧ (∀ x ∈ s.pairsOf c.port, standsBefore (s.rankOf c.port x) x (s.rankOf c.port c.cand) c.cand = false)
         ∧ ∀ q, s.pairsOf q ≠ [] → ¬ s.turnsBefore q c.port)

/-- A grant: the copy becomes TAKEN by the channel and keeps its other fields, its entry joins the end of the channel's list with a deadline of
now plus the hand-off time, the ask goes down by 1 and ends at 0, GRANT is raised at the channel, a rotation grant moves the pointers and
starts a streak, and nothing else behind the lines changes. An ASK that waits at the channel carries the grant record, and its reply is built if the port is in no
pair; any other unit there is as it was. Each record shows the values as they stood at its grant, which the text under R110 says of an
ASK reply; that R186, which fills a reply from the state when it is built, finds there the records kept from the grants is the model's reading, log entry 6, and
that the reply names the filter of the ask served, also
where this grant has ended it, is the model's reading, log entry 22 (R102, R109, R110, R186). -/
def Obligations.GrantHandsTheCopyOver : Prop :=
  ∀ (s : State) (c : Choice) (count : Nat) (filter : Option Nat),
    s.inService = true → s.numbersDistinct → s.choose = some c → (s.channels.get c.port).state = .asking count filter →
    let n := c.cand.msg.number
    let deadline := min (s.clock + s.handOff.times.get c.cand.msg.prec) 4294967295
    let record : List Byte := be16 n ++ be8 c.cand.index
      ++ (match s.station c.cand.copy.station with | some st => st.call | none => List.replicate 7 0x20) ++ be8 (precCode c.cand.msg.prec)
      ++ be8 (c.cand.copy.uncertain.toNat + 2 * c.cand.copy.pinned.isSome.toNat) ++ be8 c.cand.copy.attempts ++ be8 0 ++ be32 deadline
      ++ be16 c.cand.msg.body.length ++ be16 c.cand.msg.wordCheck
    ∃ t, exec .grant s = .next t
      ∧ (∀ k, k ≠ n → t.findMsg k = s.findMsg k)
      ∧ t.findMsg n = some { c.cand.msg with
          copies := c.cand.msg.copies.set c.cand.index { c.cand.copy with state := some (.taken c.port) } }
      ∧ t.lists = s.lists.set c.port (s.lists.get c.port ++
          [⟨n, c.cand.index, deadline, 0, false⟩])
      ∧ t.channels = s.channels.set c.port
          { s.channels.get c.port with state := if count = 1 then .ready else .asking (count - 1) filter }
      ∧ t.status = s.statusWith .granted c.port
      ∧ (∀ m, c.step = .rotation m → t.firstPtr = some m.key ∧ t.streak = some ⟨c.port, c.cand.copy.station, 1⟩
          ∧ t.tierBPtr = if m = .tierB then some c.port else s.tierBPtr)
      ∧ (c.step = .life → t.firstPtr = s.firstPtr ∧ t.tierBPtr = s.tierBPtr ∧ t.streak = s.streak)
      ∧ t.behind = { s with
          store := t.store, lists := t.lists, channels := t.channels, status := t.status, firstPtr := t.firstPtr
          tierBPtr := t.tierBPtr, streak := t.streak }.behind
      ∧ (∀ q, q ≠ c.port → t.lineFollows s q) ∧ t.outputsAgree
      ∧ (∀ f clamped stood g records, s.entryOf c.port n c.cand.index = none →
          s.serviceOf c.port = some (.asking f clamped stood g records) →
          t.units.get c.port = { s.units.get c.port with service := some (
            if t.hasPair c.port = true then .asking f clamped stood g (records ++ [record])
            else .replying f (replyFrame f .ok (be8 clamped ++ be8 stood ++ beEntry g ++ be8 (records.length + 1)
              ++ records.flatten ++ record)) 0) })
      ∧ ((∀ f clamped stood g records, s.serviceOf c.port ≠ some (.asking f clamped stood g records)) →
          t.units.get c.port = s.units.get c.port)

/-! ### Copies -/

/-- All that a change of one copy brings with it: the message closes or reopens, the waiting count of the copy's station follows, the entry in
its holder's list goes or is marked, COPY_FAILED is raised when the copy enters FAILED, and nothing else changes (R5, R57, R63, R70). -/
def Obligations.CopyChangeCarriesItsEffects : Prop :=
  ∀ (s : State) (n i : Nat) (c : Copy) (f : Copy → Copy), s.copyAt n i = some c →
    let t := s.changeCopy n i f
    t.copyBecomes s n i (f c)
    ∧ t.book = s.book.modify c.station (Option.map fun st =>
        if !c.live && (f c).live then { st with waiting := st.waiting + 1 }
        else if c.live && !(f c).live then { st with waiting := st.waiting - 1 } else st)
    ∧ (c.holder = none → t.lists = s.lists)
    ∧ (∀ j, c.holder = some j → (f c).holder ≠ some j → t.lists = s.listsWithout j n i)
    ∧ (∀ j, c.holder = some j → (f c).state = some (.withdrawing j) →
        t.lists = s.lists.set j ((s.lists.get j).map fun e =>
          if e.number = n ∧ e.index = i then { e with withdrawing := true } else e))
    ∧ (∀ j, c.holder = some j → (f c).state = some (.taken j) → t.lists = s.lists)
    ∧ t.status = (if (f c).state = some .failed ∧ c.state ≠ some .failed then s.statusAt .copyFailed fun p => s.roles.get p == .console
        else s.status)
    ∧ t = { s with store := t.store, book := t.book, lists := t.lists, status := t.status }

/-! ### Settings and events -/

/-- SET RANKING and SET STORE take their values clamped, change nothing else and echo what they took. CLEAR COUNTERS sets every counter to 0. SET
OWN CALL gives entry 0 the call sign, unless another entry holds it: then STATE with that entry's index (R18, R46, R93, R141). -/
def Obligations.SettingsCountersAndOwnCallAreTaken : Prop :=
  (∀ (p : Port) (tag : Byte) (s : State), s.freeAt p = true → s.roles.get p = .console →
     (∀ life priority welfare routine penalty fit : Byte,
       let r : RankSettings := ⟨⟨min 15 life.toNat, min 15 priority.toNat, min 15 welfare.toNat, min 15 routine.toNat⟩,
         penalty.toNat, min 100 fit.toNat⟩
       ∃ t, exec (.setRanking p tag life priority welfare routine penalty fit) s = .next t ∧ t.behind = { s with ranking := r }.behind
         ∧ t.answers s p ⟨0x33, tag, [life, priority, welfare, routine, penalty, fit]⟩ .ok
             (be8 r.aging.life ++ be8 r.aging.priority ++ be8 r.aging.welfare ++ be8 r.aging.routine ++ be8 r.penalty ++ be8 r.fit))
     ∧ ∀ (auto : Byte) (timeout : Half),
       let seconds := max 10 (min 600 timeout.toNat)
       ∃ t, exec (.setStore p tag auto timeout) s = .next t
         ∧ t.behind = { s with storeSet := ⟨decide (auto.toNat ≠ 0), seconds⟩ }.behind
         ∧ t.answers s p ⟨0x3C, tag, [auto, hiByte timeout, loByte timeout]⟩ .ok
             (be8 (if auto.toNat = 0 then 0 else 1) ++ be16 seconds))
  ∧ (∀ (p : Port) (tag : Byte) (s : State), s.freeAt p = true → s.roles.get p = .console →
       (∃ t, exec (.clearCounters p tag) s = .next t
         ∧ t.behind = { s with counters := .same ⟨0, 0, 0, 0, 0, 0, 0⟩, totals := ⟨0, 0, 0⟩ }.behind
         ∧ t.answers s p ⟨0x3E, tag, []⟩ .ok [])
       ∧ ∀ field : List Byte, field.length = 7 →
         let answered := fun (b : List (Option Station)) (r : Result) (fields : List Byte) => ∃ t, exec (.setOwnCall p tag field) s = .next t
           ∧ t.behind = { s with book := b }.behind ∧ t.answers s p ⟨0x30, tag, field⟩ r fields
         (callOf field = none → answered s.book .badField [])
         ∧ ∀ c, callOf field = some c →
             (∀ e, findCall s.book c = some e → 0 < e → answered s.book .state (be8 e))
             ∧ (findCall s.book c = none ∨ findCall s.book c = some 0 →
                 answered (s.book.modify 0 (Option.map fun st => { st with call := c })) .ok c))

/-- SET DISPATCH takes its values clamped, and its reply carries the tier and the run length of each port, the window and the period as taken. Where it
changes the decay period to one above 0, every grade at a CHANNEL port whose recomputed deadline has been reached falls by 1 at once, touched now; every other
grade is kept, and a free entry stays free. That a request which leaves the period as it was lowers no grade is the model's reading, log entry 20 (R58, R117,
R118, R188). -/
def Obligations.DispatchSettingsAreTaken : Prop :=
  ∀ (p : Port) (tag : Byte) (tiers runs : PerPort Byte) (window : Half) (decay : Byte) (s : State),
    s.freeAt p = true → s.roles.get p = .console →
    let d := min 240 decay.toNat
    ∃ t, exec (.setDispatch p tag tiers runs window decay) s = .next t
      ∧ (∀ k, t.dispatch.tiers.get k = if (tiers.get k).toNat = 0 then .a else .b)
      ∧ (∀ k, t.dispatch.runs.get k = max 1 (min 8 (runs.get k).toNat))
      ∧ t.dispatch.window = min 600 window.toNat ∧ t.dispatch.decay = d
      ∧ (d = s.dispatch.decay ∨ d = 0 → t.book = s.book)
      ∧ (d ≠ s.dispatch.decay → d ≠ 0 → ∀ (e : Nat) (st : Station), s.station e = some st →
          ∃ u, t.station e = some u ∧ { u with grades := st.grades } = st ∧ ∀ k,
            u.grades.get k =
              if s.roles.get k = .channel ∧ 0 < (st.grades.get k).value
                  ∧ min ((st.grades.get k).touched + d * 60) 4294967295 ≤ s.clock
              then ⟨(st.grades.get k).value - 1, s.clock⟩ else st.grades.get k)
      ∧ (∀ e, s.station e = none → t.station e = none)
      ∧ t.behind = { s with dispatch := t.dispatch, book := t.book }.behind
      ∧ t.answers s p ⟨0x34, tag, [tiers.p0, runs.p0, tiers.p1, runs.p1, tiers.p2, runs.p2, tiers.p3, runs.p3, tiers.p4, runs.p4,
            tiers.p5, runs.p5, hiByte window, loByte window, decay]⟩ .ok
          ((Port.all.flatMap fun k => be8 (match t.dispatch.tiers.get k with | .a => 0 | .b => 1) ++ be8 (t.dispatch.runs.get k))
            ++ be16 t.dispatch.window ++ be8 d)

/-- SET HAND-OFF takes its values clamped, and every WAITING or HELD_FOR copy at or above a lowered limit of its precedence becomes FAILED in
the same event: its message closes if no copy is left that is not terminal, its station's waiting count falls, the reply counts it, COPY_FAILED is raised at
the consoles. Every other copy, message, count and field is as it was (R5, R57, R70, R71, R140, R188). -/
def Obligations.HandOffSettingsFailCopiesAtALoweredLimit : Prop :=
  ∀ (p : Port) (tag : Byte) (tl tp tw tr : Half) (ll lp lw lr lapse : Byte) (s : State),
    s.freeAt p = true → s.roles.get p = .console → s.numbersDistinct →
    let time := fun h : Half => max 30 (min 3600 h.toNat)
    let limit := fun b : Byte => max 1 (min 15 b.toNat)
    let limits : PerPrec := ⟨limit ll, limit lp, limit lw, limit lr⟩
    let fails := fun (m : Message) (c : Copy) => (c.state == some .waiting || (match c.state with | some (.heldFor ..) => true | _ => false))
      && decide (limits.get m.prec < s.handOff.limits.get m.prec) && decide (limits.get m.prec ≤ c.attempts)
    let failed := (s.store.map fun m => m.copies.countP (fails m)).sum
    ∃ t, exec (.setHandOff p tag tl tp tw tr ll lp lw lr lapse) s = .next t
      ∧ t.handOff = ⟨⟨time tl, time tp, time tw, time tr⟩, limits, max 1 (min 7 lapse.toNat)⟩
      ∧ (∀ n i m c, s.findMsg n = some m → m.copies[i]? = some c →
          t.copyAt n i = some (if fails m c then { c with state := some .failed } else c))
      ∧ t.store.map Message.number = s.store.map Message.number
      ∧ (∀ n m f, s.findMsg n = some m → m.phase = .filed f → t.findMsg n = some (
          let after := { m with copies := m.copies.map fun c => if fails m c then { c with state := some .failed } else c }
          if after.copies.all Copy.terminal && m.copies.any (fails m) then { after with phase := .closed f s.clock } else after))
      ∧ (∀ n m, s.findMsg n = some m → m.copies.any (fails m) = false → t.findMsg n = some m)
      ∧ (∀ e, t.station e = (s.station e).map fun st => { st with
          waiting := st.waiting - (s.store.map fun m => m.copies.countP fun c => fails m c && c.station == e).sum })
      ∧ (failed = 0 → t.store = s.store ∧ t.book = s.book ∧ t.status = s.status)
      ∧ (0 < failed → t.status = s.statusAt .copyFailed fun q => s.roles.get q == .console)
      ∧ t.behind = { s with handOff := t.handOff, store := t.store, book := t.book, status := t.status }.behind
      ∧ t.answers s p ⟨0x35, tag, [hiByte tl, loByte tl, hiByte tp, loByte tp, hiByte tw, loByte tw, hiByte tr, loByte tr,
            ll, lp, lw, lr, lapse]⟩ .ok
          (be16 (time tl) ++ be16 (time tp) ++ be16 (time tw) ++ be16 (time tr)
            ++ be8 (limit ll) ++ be8 (limit lp) ++ be8 (limit lw) ++ be8 (limit lr) ++ be8 (max 1 (min 7 lapse.toNat)) ++ be16 failed)

/-- CLEAR EVENTS removes the named kinds from the requesting port's status set, SET EVENT MASK makes its enable set the named kinds of its routed set;
either refuses a set with one of the top four bits. SET ANNUNCIATOR replaces the four functions and refuses a code above 6. The first event of a
port is the earliest kind in both its sets, none when they have none in common, and in service the attention line follows it (R171 to R174,
R176). -/
def Obligations.EventRequestsActAndTheFirstEventIsNamed : Prop :=
  (∀ (p : Port) (tag : Byte) (s : State), s.freeAt p = true →
     (∀ set : Half, set.toNat < 4096 →
       (∃ t, exec (.clearEvents p tag set) s = .next t
         ∧ t.behind = { s with status := s.status.set p (s.status.get p &&& ~~~(set.setWidth 12)) }.behind
         ∧ t.answers s p ⟨0x02, tag, [hiByte set, loByte set]⟩ .ok (beEvents (t.status.get p) ++ be8 (eventCode (t.firstEvent p))))
       ∧ ∃ t, exec (.setEventMask p tag set) s = .next t
         ∧ t.behind = { s with enable := s.enable.set p (set.setWidth 12 &&& routedSet (s.roles.get p)) }.behind
         ∧ t.answers s p ⟨0x03, tag, [hiByte set, loByte set]⟩ .ok
             (beEvents (t.enable.get p) ++ beEvents (t.status.get p) ++ be8 (eventCode (t.firstEvent p))))
     ∧ (∀ set : Half, 4096 ≤ set.toNat →
       (∃ t, exec (.clearEvents p tag set) s = .next t ∧ t.behind = s.behind
         ∧ t.answers s p ⟨0x02, tag, [hiByte set, loByte set]⟩ .badField [])
       ∧ ∃ t, exec (.setEventMask p tag set) s = .next t ∧ t.behind = s.behind
         ∧ t.answers s p ⟨0x03, tag, [hiByte set, loByte set]⟩ .badField [])
     ∧ (s.roles.get p = .console → ∀ a b c d : Byte,
       (∀ w x y z, annFnOf a = some w → annFnOf b = some x → annFnOf c = some y → annFnOf d = some z →
         ∃ t, exec (.setAnnunciator p tag a b c d) s = .next t ∧ t.behind = { s with annFns := ⟨w, x, y, z⟩ }.behind
           ∧ t.answers s p ⟨0x3F, tag, [a, b, c, d]⟩ .ok
               ([a, b, c, d] ++ t.annOut.toList.map fun level => if level then 1 else 0))
       ∧ (6 < a.toNat ∨ 6 < b.toNat ∨ 6 < c.toNat ∨ 6 < d.toNat →
         ∃ t, exec (.setAnnunciator p tag a b c d) s = .next t ∧ t.behind = s.behind
           ∧ t.answers s p ⟨0x3F, tag, [a, b, c, d]⟩ .badField [])))
  ∧ (∀ (s : State) (p : Port),
       let pending := s.status.get p &&& s.enable.get p
       (∀ k, s.firstEvent p = some k ↔
         pending.getLsbD (eventOrder k - 1) = true ∧ ∀ j, eventOrder j < eventOrder k → pending.getLsbD (eventOrder j - 1) = false)
       ∧ (s.firstEvent p = none ↔ pending = 0)
       ∧ (s.inService = true → s.roles.get p ≠ .off → (s.attentionOf p = true ↔ s.firstEvent p ≠ none)))

/-! ### The Station Book -/

/-- The entry that is provided for an unknown call sign: the lowest free one of entries 1 to 63, else the unnamed AUTO entry of the oldest
created stamp and, among equal ones, the lowest index, else none (R49). -/
def Obligations.EntryProvidedIsFreeOrTheOldest : Prop :=
  ∀ (book : List (Option Station)) (isNamed : Nat → Bool) (busy : List Nat),
    let free := fun e => 1 ≤ e ∧ e ≤ 63 ∧ book[e]? = some none
    let old := fun e (st : Station) => e ≤ 63 ∧ book[e]? = some (some st) ∧ st.kind = .auto ∧ isNamed e = false ∧ e ∉ busy
    (∀ e, provideEntry book isNamed busy = some (e, false) ↔ free e ∧ ∀ d, free d → e ≤ d)
    ∧ (∀ e, provideEntry book isNamed busy = some (e, true) ↔ (∀ d, ¬ free d) ∧ ∃ st, old e st
        ∧ ∀ d u, old d u → st.created < u.created ∨ st.created = u.created ∧ e ≤ d)
    ∧ (provideEntry book isNamed busy = none ↔ (∀ d, ¬ free d) ∧ ∀ d u, ¬ old d u)

/-- HEARD writes the clamped grade of the station's entry at the requesting channel, touched now, in the entry found or provided; a blank or invalid
call is refused BAD_FIELD, the own call STATE, a book with no entry to give BOOK_FULL (R55). -/
def Obligations.HeardWritesTheGradeAtItsPort : Prop :=
  ∀ (p : Port) (tag grade : Byte) (field : List Byte) (s : State),
    s.freeAt p = true → s.roles.get p = .channel → field.length = 7 →
    let answered := fun (u : State) (r : Result) (fields : List Byte) => ∃ t, exec (.heard p tag field grade) s = .next t
      ∧ t.behind = u.behind ∧ t.answers s p ⟨0x24, tag, field ++ [grade]⟩ r fields
    let g := min 3 grade.toNat
    (callOf field = none → answered s .badField [])
    ∧ ∀ c, callOf field = some c →
        (c = s.ownCall → answered s .state [])
        ∧ (c ≠ s.ownCall → ∀ e, findCall s.book c = some e →
            answered { s with book := s.book.modify e (Option.map fun st => { st with grades := st.grades.set p ⟨g, s.clock⟩ }) } .ok
              (be8 e ++ be8 g ++ be8 0))
        ∧ (c ≠ s.ownCall → findCall s.book c = none → ∀ e recycled, provideEntry s.book s.named [] = some (e, recycled) → e < s.book.length →
            answered { s with
                book := s.book.set e (some
                  { call := c, kind := .auto, created := s.clock, grades := (PerPort.same ⟨0, s.clock⟩).set p ⟨g, s.clock⟩
                    affinity := none, waiting := 0 })
                streak := s.streak.bind fun k => if recycled = true ∧ k.station = e then none else some k } .ok
              (be8 e ++ be8 g ++ be8 1))
        ∧ (c ≠ s.ownCall → findCall s.book c = none → provideEntry s.book s.named [] = none → answered s .bookFull [])

/-- SET STATION on an entry found: kind SET, the grades of the CHANNEL ports in the set written and touched now, every other grade kept, the
affinity removed if the flag is set. On a call no entry holds, the same over the entry provided, of kind SET. A blank or
invalid call and a port set with a top bit are refused BAD_FIELD. The former kind that a recycled entry's reply names, AUTO, is the model's reading, log entry 21 (R51). -/
def Obligations.SetStationClaimsTheEntry : Prop :=
  ∀ (p : Port) (tag ports clear : Byte) (grades : PerPort Byte) (field : List Byte) (s : State),
    s.freeAt p = true → s.roles.get p = .console → field.length = 7 →
    let answered := fun (u : State) (r : Result) (fields : List Byte) => ∃ t, exec (.setStation p tag field ports grades clear) s = .next t
      ∧ t.behind = u.behind
      ∧ t.answers s p ⟨0x31, tag, field ++ [ports, grades.p0, grades.p1, grades.p2, grades.p3, grades.p4, grades.p5, clear]⟩ r fields
    let written := fun st : Station => { st with
      kind := .set
      grades := .build fun k => if ports.getLsbD (portNumber k) = true ∧ s.roles.get k = .channel
        then ⟨min 3 (grades.get k).toNat, s.clock⟩ else st.grades.get k
      affinity := if clear.toNat = 0 then st.affinity else none }
    let echo := fun (e : Nat) (former : Option StationKind) (st : Station) =>
      be8 e ++ be8 (kindCode former) ++ (Port.all.flatMap fun k => be8 (st.grades.get k).value)
        ++ be8 (if st.affinity.isSome then 1 else 0)
    (64 ≤ ports.toNat ∨ callOf field = none → answered s .badField [])
    ∧ ∀ c, callOf field = some c →
        (ports.toNat < 64 → c = s.ownCall → answered s .state [])
        ∧ (ports.toNat < 64 → c ≠ s.ownCall → ∀ e st, findCall s.book c = some e → s.station e = some st →
            answered { s with book := s.book.set e (some (written st)) } .ok (echo e (some st.kind) (written st)))
        ∧ (ports.toNat < 64 → c ≠ s.ownCall → findCall s.book c = none → ∀ e recycled,
            provideEntry s.book s.named [] = some (e, recycled) → e < s.book.length →
            let st := written { call := c, kind := .set, created := s.clock, grades := .same ⟨0, s.clock⟩, affinity := none, waiting := 0 }
            answered { s with
                book := s.book.set e (some st)
                streak := s.streak.bind fun k => if recycled = true ∧ k.station = e then none else some k } .ok
              (echo e ((s.station e).map Station.kind) st))
        ∧ (ports.toNat < 64 → c ≠ s.ownCall → findCall s.book c = none → provideEntry s.book s.named [] = none → answered s .bookFull [])

/-- REMOVE STATION frees an entry that is not named, ending a streak for it; its refusals come in the order of R52 (R50, R52). -/
def Obligations.RemoveStationFreesAnUnnamedEntry : Prop :=
  ∀ (p : Port) (tag : Byte) (field : List Byte) (s : State), s.freeAt p = true → s.roles.get p = .console → field.length = 7 →
    let answered := fun (u : State) (r : Result) (fields : List Byte) => ∃ t, exec (.removeStation p tag field) s = .next t
      ∧ t.behind = u.behind ∧ t.answers s p ⟨0x32, tag, field⟩ r fields
    (callOf field = none → answered s .badField [])
    ∧ ∀ c, callOf field = some c →
        (findCall s.book c = none → answered s .noSuch [])
        ∧ (findCall s.book c = some 0 → answered s .state [])
        ∧ ∀ e st, findCall s.book c = some e → s.station e = some st → 0 < e →
            (s.named e = true → answered s .inUse (be8 st.waiting))
            ∧ (s.named e = false →
                answered { s with
                    book := s.book.set e none
                    streak := s.streak.bind fun k => if k.station = e then none else some k } .ok (be8 e))

/-- The timers that lower a grade or end a hold act when the store clock has reached them, and otherwise do nothing (R58, R65, R114). That they
are commands of the queue is log entry 5. -/
def Obligations.DecayAndHoldEndActWhenDue : Prop :=
  ∀ s : State, s.inService = true →
    (∀ (e : Nat) (p : Port) (st : Station), s.station e = some st →
      let g := st.grades.get p
      let due := s.roles.get p = .channel ∧ 0 < g.value ∧ 0 < s.dispatch.decay ∧ min (g.touched + s.dispatch.decay * 60) 4294967295 ≤ s.clock
      (due → ∃ t, exec (.decay e p) s = .next t ∧ t.follows s
        ∧ t.behind = { s with book := s.book.set e (some { st with grades := st.grades.set p ⟨g.value - 1, s.clock⟩ }) }.behind)
      ∧ (¬ due → ∃ t, exec (.decay e p) s = .next t ∧ t.follows s ∧ t.behind = s.behind))
    ∧ ∀ (n i : Nat) (c : Copy), s.copyAt n i = some c →
      (∀ p ends, c.state = some (.heldFor p ends) → ends ≤ s.clock →
        ∃ t, exec (.holdEnd n i) s = .next t ∧ t.follows s ∧ t.copyBecomes s n i { c with state := some .waiting }
          ∧ t.behind = { s with store := t.store }.behind)
      ∧ ((∀ p ends, c.state = some (.heldFor p ends) → s.clock < ends) →
        ∃ t, exec (.holdEnd n i) s = .next t ∧ t.follows s ∧ t.behind = s.behind)

/-! ### Lodging -/

/-- LODGE OPEN, its form and its refusals. A call sign is 3 to 7 letters, digits and strokes, folded, no stroke first or last, then spaces. The form of
the fields; the addressees kept once each, at the place of their first appearance; each resolved to the entry that holds its call or to one provided
from what the earlier ones left. Refused: BAD_FIELD for the form, STATE with the number of the message the port is lodging, BOOK_FULL, then for an
explicit origin DUPLICATE, which is counted and raises DUPLICATE_SEEN at the consoles and changes nothing else, and FULL where the slots have no room
and no auto-purge makes it. That addressees are resolved in turn over the book as the earlier ones left it is the model's reading, log entry 15
(R11, R17, R24, R25, R26, R28, R29, R30, R45, R49). -/
def Obligations.LodgeOpenRefusalsComeInOrder : Prop :=
  (∀ (p : Port) (tag prec : Byte) (origin : List Byte) (serial check : Half) (addressees : List (List Byte)) (i : Instr) (g : Frame) (s : State),
     s.freeAt p = true → i = .lodgeOpen p tag prec origin serial check addressees → i.wellFormed = true → i.toFrame = some (p, g) →
     let refused := fun (u : State) (r : Result) (fields : List Byte) => ∃ t, exec i s = .next t ∧ t.behind = u.behind ∧ t.answers s p g r fields
     let fields := openFields prec origin serial check addressees
     (fields = none → refused s .badField [])
     ∧ ∀ f, fields = some f →
         (∀ l, s.lodges.get p = some l → refused s .state (be16 l.number))
         ∧ (s.lodges.get p = none →
             (resolveAll s.named s.clock f.calls s.book [] = none → refused s .bookFull [])
             ∧ (∀ rs o, resolveAll s.named s.clock f.calls s.book [] = some rs → f.origin = some o →
                 let counted := { s with
                   totals := { s.totals with duplicates := min (s.totals.duplicates + 1) 65535 }
                   status := s.statusAt .duplicateSeen fun q => s.roles.get q == .console }
                 (∀ m, ⟨o, f.serial⟩ ∈ s.dupTable → s.store.find? (fun x => x.key == ⟨o, f.serial⟩) = some m →
                   refused counted .duplicate (be16 m.number ++ be8 (phaseCode m.phase) ++ be8 (portNumber m.lodgedAt)))
                 ∧ (⟨o, f.serial⟩ ∉ s.dupTable → ⟨o, f.serial⟩ ∈ s.ring → refused counted .duplicate [0, 0, 0xFF, 0xFF]))
             ∧ ∀ rs, resolveAll s.named s.clock f.calls s.book [] = some rs →
                 (∀ o, f.origin = some o → ⟨o, f.serial⟩ ∉ s.dupTable ∧ ⟨o, f.serial⟩ ∉ s.ring) →
                 s.makeRoom (fun u => if f.prec = .life then u.store.length < 128 else u.store.length + 8 < 128) = none → refused s .full []))
  ∧ ((∀ (field : List Byte) (c : Call), callOf field = some c ↔
         field.length = 7 ∧ c = field.map (fun b => if 0x61 ≤ b.toNat ∧ b.toNat ≤ 0x7A then b - 0x20 else b)
         ∧ ∃ chars : List Byte, c = chars ++ List.replicate (7 - chars.length) 0x20 ∧ 3 ≤ chars.length ∧ chars.length ≤ 7
           ∧ (∀ b ∈ chars, 0x41 ≤ b.toNat ∧ b.toNat ≤ 0x5A ∨ 0x30 ≤ b.toNat ∧ b.toNat ≤ 0x39 ∨ b = 0x2F)
           ∧ chars.head? ≠ some 0x2F ∧ chars.getLast? ≠ some 0x2F)
     ∧ (∀ (prec : Byte) (origin : List Byte) (serial check : Half) (addressees : List (List Byte)),
         (openFields prec origin serial check addressees = none ↔
           3 < prec.toNat ∨ origin ≠ List.replicate 7 0x20 ∧ callOf origin = none ∨ 999 < check.toNat
           ∨ addressees = [] ∨ 8 < addressees.length ∨ ∃ a ∈ addressees, callOf a = none)
         ∧ ∀ f, openFields prec origin serial check addressees = some f →
           precCode f.prec = prec.toNat ∧ f.serial = serial.toNat ∧ f.check = check.toNat
           ∧ f.origin = (if origin = List.replicate 7 0x20 then none else callOf origin)
           ∧ f.calls = (addressees.filterMap callOf).eraseDups)
     ∧ ∀ (s : State) (calls : List Call),
         (∀ rs : List Resolved, resolveAll s.named s.clock calls s.book [] = some rs ↔
           rs.map Resolved.call = calls ∧ ∀ k r, rs[k]? = some r →
             let book := (s.writeResolved (rs.take k)).book
             if r.made then findCall book r.call = none ∧ provideEntry book s.named ((rs.take k).map Resolved.entry) = some (r.entry, r.recycled)
             else findCall book r.call = some r.entry ∧ r.recycled = false)
         ∧ (resolveAll s.named s.clock calls s.book [] = none ↔ ∃ k, k < calls.length ∧ ∃ rs c,
             resolveAll s.named s.clock (calls.take k) s.book [] = some rs ∧ calls[k]? = some c
             ∧ findCall (s.writeResolved rs).book c = none
             ∧ provideEntry (s.writeResolved rs).book s.named (rs.map Resolved.entry) = none))

/-- LODGE OPEN, served in the state that its slot test gives, after an auto-purge or without one: the record is made, the new entries written, the
number given, the key entered (and an own key taken out of the ring), the context filled with its deadline, the store-low condition re-examined
(R11, R17, R26, R27, R29, R30, R49, R50). -/
def Obligations.LodgeOpenMakesTheMessage : Prop :=
  ∀ (p : Port) (tag prec : Byte) (origin : List Byte) (serial check : Half) (addressees : List (List Byte)) (i : Instr) (g : Frame) (s : State)
    (f : OpenFields) (rs : List Resolved),
    s.freeAt p = true → i = .lodgeOpen p tag prec origin serial check addressees → i.wellFormed = true → i.toFrame = some (p, g) →
    openFields prec origin serial check addressees = some f → s.lodges.get p = none →
    resolveAll s.named s.clock f.calls s.book [] = some rs →
    (∀ o, f.origin = some o → ⟨o, f.serial⟩ ∉ s.dupTable ∧ ⟨o, f.serial⟩ ∉ s.ring) →
    ∀ u, s.makeRoom (fun u => if f.prec = .life then u.store.length < 128 else u.store.length + 8 < 128) = some u →
    let number := u.nextNumber
    let key : Key := match f.origin with | some o => ⟨o, f.serial⟩ | none => ⟨s.ownCall, number⟩
    let deadline := min (s.clock + s.storeSet.openTimeout) 4294967295
    ∃ t, exec i s = .next t
      ∧ t.store = insertMsg
          { number, phase := .opened, prec := f.prec, origin := key.call, serial := key.serial, wordCheck := f.check, lodgedAt := p
            body := [], chain := [], openStamp := s.clock
            copies := rs.map fun r => { station := r.entry, state := none, attempts := 0, uncertain := false, pinned := none } } u.store
      ∧ t.lastNumber = number
      ∧ t.dupTable = u.dupTable ++ [key]
      ∧ t.ring = (if f.origin = none then u.ring.erase key else u.ring)
      ∧ t.lodges = s.lodges.set p (some ⟨number, deadline⟩)
      ∧ (∀ r ∈ rs, r.made = true → t.station r.entry = some
          { call := r.call, kind := .auto, created := s.clock, grades := .same ⟨0, s.clock⟩, affinity := none, waiting := 0 })
      ∧ (∀ e, (∀ r ∈ rs, r.made = true → r.entry ≠ e) → t.station e = u.station e)
      ∧ t.streak = s.streak.bind (fun k => if rs.any fun r => r.made && r.recycled && r.entry == k.station then none else some k)
      ∧ t.prevLow = t.low ∧ t.status = s.statusIfLow t.low
      ∧ t.behind = { u with
          store := t.store, lastNumber := number, dupTable := t.dupTable, ring := t.ring, lodges := t.lodges, book := t.book
          streak := t.streak, prevLow := t.low, status := t.status }.behind
      ∧ t.answers s p g .ok (be16 number ++ be16 key.serial ++ be32 deadline ++ be8 rs.length
          ++ rs.zipIdx.flatMap fun ri => be8 ri.2 ++ ri.1.call ++ be8 ri.1.entry ++ be8 (if ri.1.made then 1 else 0))

/-- The local number given is the first candidate after the last-assigned number that no message holds and whose own-call key is not in the
table; it is found within 257 candidates (R7). -/
def Obligations.LocalNumberIsTheFirstFreeCandidate : Prop :=
  ∀ s : State, s.storeInLaw →
    let taken := fun n => (∃ m ∈ s.store, m.number = n) ∨ ⟨s.ownCall, n⟩ ∈ s.dupTable
    1 ≤ s.nextNumber ∧ s.nextNumber ≤ 9999 ∧ ¬ taken s.nextNumber
      ∧ ∃ k, k ≤ 256 ∧ s.nextNumber = numberAfter^[k + 1] s.lastNumber ∧ ∀ j, j < k → taken (numberAfter^[j + 1] s.lastNumber)

/-- Auto-purge: where a reserve condition fails, the shortest run of the candidates in purge order whose purging meets it is purged, each counted;
with auto-purge off, or no run enough, nothing is. The candidates are the CLOSED messages with no FAILED copy, in rising filing sequence. One
purge frees the slot and the blocks, moves the key from the table to the newest end of the ring, the oldest key of a full ring dropped, lowers the
waiting counts for the live copies, counts itself, and changes nothing else (R11, R12, R15, R17, R40). The order among equal sequences is the free
value of log entry 4. -/
def Obligations.AutoPurgeTakesTheShortestRun : Prop :=
  (∀ (s : State) (cond : State → Bool),
    (cond s = true → s.makeRoom cond = some s)
    ∧ (cond s = false → s.storeSet.autoPurge = false → s.makeRoom cond = none)
    ∧ (cond s = false → s.storeSet.autoPurge = true → ∀ t, s.makeRoom cond = some t ↔
        ∃ k, 1 ≤ k ∧ k ≤ s.purgeCands.length ∧ t = (s.purgeCands.take k).foldl State.autoPurgeOne s ∧ cond t = true
          ∧ ∀ j, 1 ≤ j → j < k → cond ((s.purgeCands.take j).foldl State.autoPurgeOne s) = false)
    ∧ (cond s = false → s.makeRoom cond = none → s.storeSet.autoPurge = true →
        ∀ k, 1 ≤ k → k ≤ s.purgeCands.length → cond ((s.purgeCands.take k).foldl State.autoPurgeOne s) = false))
  ∧ ∀ s : State, (s.purgeCands.Perm (s.store.filter fun m => m.isClosed && !m.hasFailed))
      ∧ s.purgeCands.Pairwise fun m n => m.sequence ≤ n.sequence
  ∧ ∀ (s : State) (m : Message),
      let t := s.autoPurgeOne m
      t.dupTable = s.dupTable.erase m.key
      ∧ t.ring = (if s.ring.length < 64 then s.ring else s.ring.drop 1) ++ [m.key]
      ∧ (∀ e, t.station e = (s.station e).map fun st =>
          { st with waiting := st.waiting - m.copies.countP fun c => c.live && c.station == e })
      ∧ (∀ b, b ∈ t.freeBlockList ↔ b < 2048 ∧ ∀ x ∈ s.store, x.number ≠ m.number → b ∉ x.chain)
      ∧ t = { s with
          store := s.store.filter fun x => x.number != m.number
          dupTable := t.dupTable, ring := t.ring, book := t.book
          totals := { s.totals with autoPurges := min (s.totals.autoPurges + 1) 65535 } }

/-- LODGE PART: NO_OPEN, TOO_LONG, and FULL where neither the blocks that stand free nor an auto-purge give room, with nothing changed. A served part,
after an auto-purge or without one, appends its bytes and the blocks it needs and renews the deadline. Which free blocks are taken is the free value of
log entry 3: whatever it is, they are free ones, each once (R9, R10, R12, R17, R31, R32). -/
def Obligations.LodgePartAppendsToTheBody : Prop :=
  ∀ (p : Port) (tag : Byte) (bytes : List Byte) (s : State), s.freeAt p = true → 1 ≤ bytes.length → bytes.length ≤ 48 →
    let refused := fun r : Result => ∃ t, exec (.lodgePart p tag bytes) s = .next t ∧ t.behind = s.behind
      ∧ t.answers s p ⟨0x11, tag, bytes⟩ r []
    (s.lodges.get p = none → refused .noOpen)
    ∧ ∀ l m, s.lodges.get p = some l → s.findMsg l.number = some m →
        let total := m.body.length + bytes.length
        let need := (total + 31) / 32 - m.chain.length
        let room := fun u : State => need == 0
          || if m.prec = .life ∨ m.prec = .priority then decide (need ≤ u.freeBlocks) else decide (need + 128 ≤ u.freeBlocks)
        let deadline := min (s.clock + s.storeSet.openTimeout) 4294967295
        let served := fun u : State => ∃ t taken, exec (.lodgePart p tag bytes) s = .next t
          ∧ t.findMsg m.number = some { m with body := m.body ++ bytes, chain := m.chain ++ taken }
          ∧ (∀ k, k ≠ m.number → t.findMsg k = u.findMsg k)
          ∧ taken.length = need
          ∧ (need ≤ u.freeBlockList.length → taken.Nodup ∧ ∀ b ∈ taken, b < 2048 ∧ ∀ x ∈ u.store, b ∉ x.chain)
          ∧ t.lodges = s.lodges.set p (some ⟨m.number, deadline⟩)
          ∧ t.prevLow = t.low ∧ t.status = s.statusIfLow t.low
          ∧ t.behind = { u with
              store := t.store, lodges := t.lodges, prevLow := t.low, status := t.status, picks := t.picks }.behind
          ∧ t.answers s p ⟨0x11, tag, bytes⟩ .ok (be16 total ++ be16 (2048 - total) ++ be32 deadline)
        (2048 < total → refused .tooLong)
        ∧ (total ≤ 2048 → s.makeRoom room = none → refused .full)
        ∧ (total ≤ 2048 → room s = true → served s)
        ∧ (total ≤ 2048 → m.phase = .opened → s.numbersDistinct → ∀ u, s.makeRoom room = some u → served u)

/-- An affinity hold: a copy that enters WAITING by filing, RETURN or REQUEUE is HELD_FOR its station's affinity port, until now plus the window,
exactly when the six conditions hold, and WAITING otherwise (R112, R113). -/
def Obligations.AffinityHoldsMeetTheSixConditions : Prop :=
  ∀ (s : State) (prec : Prec) (c : Copy),
    (∀ a ends, s.entryState prec c = .heldFor a ends ↔
      prec ≠ .life ∧ c.station ≠ 0
      ∧ (∃ st stamp, s.station c.station = some st ∧ st.affinity = some ⟨a, stamp⟩ ∧ s.clock - stamp ≤ 1800)
      ∧ (s.roles.get a = .channel ∧ ((s.channels.get a).state = .ready ∨ ∃ n f, (s.channels.get a).state = .asking n f)
          ∧ (s.admin.get a = .none_ ∨ s.admin.get a = .step))
      ∧ 0 < s.dispatch.window
      ∧ (c.pinned = none ∨ c.pinned = some a)
      ∧ ends = min (s.clock + s.dispatch.window) 4294967295)
    ∧ (s.entryState prec c = .waiting ∨ ∃ a ends, s.entryState prec c = .heldFor a ends)

/-- LODGE CLOSE files the port's open message: words counted, stamps and sequence given, each copy in its first state, the stations' counts up, the
context emptied, the filing events raised (R8, R33, R34, R35). -/
def Obligations.LodgeCloseFilesTheMessage : Prop :=
  ∀ (p : Port) (tag : Byte) (s : State), s.freeAt p = true →
    (s.lodges.get p = none →
      ∃ t, exec (.lodgeClose p tag) s = .next t ∧ t.behind = s.behind ∧ t.answers s p ⟨0x12, tag, []⟩ .noOpen [])
    ∧ ∀ l m, s.lodges.get p = some l → s.findMsg l.number = some m →
        let words := min 999 (wordsOf m.body).length
        let differs := m.wordCheck ≠ 0 ∧ m.wordCheck ≠ words
        let sequence := min (s.filingCount + 1) 4294967295
        let copies := m.copies.map fun c => { c with state := some (s.entryState m.prec c), attempts := 0, uncertain := false }
        ∃ t, exec (.lodgeClose p tag) s = .next t
          ∧ t.findMsg m.number = some { m with
              phase := .filed { wordCount := words, checkDiffers := decide differs, filedStamp := s.clock, sequence }
              copies := copies }
          ∧ (∀ k, k ≠ m.number → t.findMsg k = s.findMsg k)
          ∧ t.filingCount = sequence
          ∧ t.lodges = s.lodges.set p none
          ∧ (∀ e, t.station e = (s.station e).map fun st =>
              { st with waiting := st.waiting + m.copies.countP fun c => c.station == e })
          ∧ t.totals = { s.totals with lodged := min (s.totals.lodged + 1) 65535 }
          ∧ (∀ q, t.status.get q = s.status.get q
              ||| (if m.prec = Prec.life ∧ s.roles.get q ≠ Role.off then eventBit .lifeFiled else 0)
              ||| (if (∃ c ∈ m.copies, c.station = 0) ∧ (s.roles.get q = Role.console ∨ s.roles.get q = Role.intake) then eventBit .localWaiting else 0)
              ||| (if differs ∧ s.roles.get q = Role.console then eventBit .checkDiffers else 0))
          ∧ t.behind = { s with
              store := t.store, filingCount := sequence, lodges := t.lodges, book := t.book, totals := t.totals, status := t.status }.behind
          ∧ t.answers s p ⟨0x12, tag, []⟩ .ok (be16 m.number ++ be16 words ++ be16 m.wordCheck ++ be8 (if differs then 1 else 0)
              ++ be32 sequence ++ be32 s.clock ++ be8 (copies.countP fun c => match c.state with | some (.heldFor ..) => true | _ => false))

/-- LODGE DROP and the open timeout remove the port's open message: its record, its key (not into the ring) and the context go; the timeout alone
raises OPEN_EXPIRED, at the lodging port and the consoles, and acts only once the clock has reached the deadline (R36, R37). That the timeout is a
command, which does nothing before the deadline, is the model's choice, log entry 5. -/
def Obligations.DropAndTimeoutRemoveTheOpenMessage : Prop :=
  ∀ (p : Port) (tag : Byte) (s : State),
    (s.freeAt p = true → s.lodges.get p = none →
      ∃ t, exec (.lodgeDrop p tag) s = .next t ∧ t.behind = s.behind ∧ t.answers s p ⟨0x13, tag, []⟩ .noOpen [])
    ∧ ∀ l m, s.lodges.get p = some l → s.findMsg l.number = some m → s.prevLow = s.low →
        let gone := { s with
          store := s.store.filter fun x => x.number != m.number, dupTable := s.dupTable.erase m.key, lodges := s.lodges.set p none }
        (s.freeAt p = true → ∃ t, exec (.lodgeDrop p tag) s = .next t ∧ t.behind = { gone with prevLow := gone.low }.behind
          ∧ t.answers s p ⟨0x13, tag, []⟩ .ok (be16 m.number))
        ∧ (s.hears p = true → l.deadline ≤ s.clock → ∃ t, exec (.openTimeoutExpiry p) s = .next t ∧ t.follows s
          ∧ t.behind = { gone with
              prevLow := gone.low, status := s.statusAt .openExpired fun q => q == p || s.roles.get q == Role.console }.behind)
        ∧ (s.hears p = true → s.clock < l.deadline →
            ∃ t, exec (.openTimeoutExpiry p) s = .next t ∧ t.follows s ∧ t.behind = s.behind)

/-! ### Channels -/

/-- CHANNEL OPEN, CHANNEL CLOSE and RESTORE CHANNEL: the channel state that each needs and what it becomes, the refusals, the lapse count, and the
holds that a close ends (R122, R123, R139). -/
def Obligations.ChannelsOpenCloseAndAreRestored : Prop :=
  ∀ (p : Port) (tag : Byte) (s : State), s.freeAt p = true →
    let active := fun x : ChanState => x = .ready ∨ ∃ n f, x = .asking n f
    (s.roles.get p = .channel →
      let c := s.channels.get p
      let opens := fun (u : State) (r : Result) (fields : List Byte) => ∃ t, exec (.channelOpen p tag) s = .next t
        ∧ t.behind = u.behind ∧ t.answers s p ⟨0x20, tag, []⟩ r fields
      let closes := fun (u : State) (r : Result) (fields : List Byte) => ∃ t, exec (.channelClose p tag) s = .next t
        ∧ t.behind = u.behind ∧ t.answers s p ⟨0x21, tag, []⟩ r fields
      (c.state = .closed →
          opens { s with channels := s.channels.set p ⟨.ready, 0⟩ } .ok (be8 (adminCode (s.admin.get p))))
        ∧ (c.state = .lapsed → opens s .lapsed [])
        ∧ (active c.state → opens s .state [])
        ∧ (c.state = .closed ∨ c.state = .lapsed → closes s .state [])
        ∧ (active c.state →
            (s.lists.get p ≠ [] → closes s .listNotEmpty (be8 (s.lists.get p).length))
            ∧ (s.lists.get p = [] →
                closes { s.releaseHolds p with channels := s.channels.set p { c with state := .closed } } .ok [])))
    ∧ (s.roles.get p = .console → ∀ port : Byte,
      let restores := fun (u : State) (r : Result) => ∃ t, exec (.restoreChannel p tag port) s = .next t
        ∧ t.behind = u.behind ∧ t.answers s p ⟨0x37, tag, [port]⟩ r []
      (portOf port = none → restores s .badField)
      ∧ ∀ k, portOf port = some k →
          (s.roles.get k ≠ .channel → restores s .badField)
          ∧ (s.roles.get k = .channel → (s.channels.get k).state ≠ .lapsed → restores s .state)
          ∧ (s.roles.get k = .channel → (s.channels.get k).state = .lapsed →
              restores { s with channels := s.channels.set k ⟨.closed, 0⟩ } .ok))

/-- SET CHANNEL ADMIN sets the mode of a CHANNEL port; HOLD and BAR end the holds for it, and BAR its standing ask too. A hold that ends leaves its
copy WAITING (R115, R127). -/
def Obligations.AdminModesAct : Prop :=
  (∀ (p : Port) (tag port mode : Byte) (s : State), s.freeAt p = true → s.roles.get p = .console →
    let answered := fun (u : State) (r : Result) (fields : List Byte) => ∃ t, exec (.setChannelAdmin p tag port mode) s = .next t
      ∧ t.behind = u.behind ∧ t.answers s p ⟨0x36, tag, [port, mode]⟩ r fields
    (portOf port = none ∨ 3 < mode.toNat → answered s .badField [])
    ∧ ∀ k m, portOf port = some k → adminOf mode = some m →
        (s.roles.get k ≠ .channel → answered s .badField [])
        ∧ (s.roles.get k = .channel →
            let c := s.channels.get k
            let was := be8 (adminCode (s.admin.get k)) ++ be8 mode.toNat
            (m = .none_ ∨ m = .step → answered { s with admin := s.admin.set k m } .ok (was ++ be8 c.state.count))
            ∧ (m = .hold → answered { s.releaseHolds k with admin := s.admin.set k m } .ok (was ++ be8 c.state.count))
            ∧ (m = .bar → (∃ n f, c.state = .asking n f) →
                answered { s.releaseHolds k with
                    admin := s.admin.set k m, channels := s.channels.set k { c with state := .ready } } .ok (was ++ be8 0))
            ∧ (m = .bar → (∀ n f, c.state ≠ .asking n f) →
                answered { s.releaseHolds k with admin := s.admin.set k m } .ok (was ++ be8 0))))
  ∧ ∀ (s : State) (k : Port) (n i : Nat), (s.releaseHolds k).copyAt n i = (s.copyAt n i).map fun c =>
      match c.state with
      | some (.heldFor q _) => if q = k then { c with state := some .waiting } else c
      | _ => c

/-- ASK and WITHDRAW ASK. An ask that passes its tests stands with its clamped count or the room in the list, whichever is smaller, and with the
entry of its filter. A port that is then in no pair is answered at once, without a grant record: OK, the clamped count, the count that stood, the entry
of the filter or 0xFF, and 0 records. Otherwise the ASK waits, and the close of the first event that leaves the port in no pair builds its reply, with the
records of the grants made to it meanwhile; that it is built at the close of an event is the model's choice, log entry 6. A withdrawal ends the ask. That an
ask of count 0 names no filter in its reply, whatever the request carried, is the model's reading, log entry 10, and that a reply built later names the filter
of the ask served, also where grants have used the ask up and its filter has ended, is the model's reading, log entry 22 (R102, R124, R125, R126, R186). -/
def Obligations.AsksStandAndAreWithdrawn : Prop :=
  ∀ (p : Port) (tag count : Byte) (filter : List Byte) (s : State), s.freeAt p = true → s.roles.get p = .channel → filter.length = 7 →
    let c := s.channels.get p
    let active := c.state = .ready ∨ ∃ n f, c.state = .asking n f
    let blank := filter = List.replicate 7 0x20
    let frame : Frame := ⟨0x22, tag, count :: filter⟩
    let refused := fun r : Result => ∃ t, exec (.ask p tag count filter) s = .next t ∧ t.behind = s.behind ∧ t.answers s p frame r []
    let withdraws := fun (u : State) (r : Result) (fields : List Byte) => ∃ t, exec (.withdrawAsk p tag) s = .next t
      ∧ t.behind = u.behind ∧ t.answers s p ⟨0x23, tag, []⟩ r fields
    (¬ blank → callOf filter = none → refused .badField)
    ∧ (blank ∨ callOf filter ≠ none →
        (c.state = .closed ∨ c.state = .lapsed → refused .state)
        ∧ (active → s.admin.get p = .bar → refused .barred)
        ∧ (active → s.admin.get p ≠ .bar →
            (callOf filter = some s.ownCall → refused .state)
            ∧ (∀ q, callOf filter = some q → q ≠ s.ownCall → findCall s.book q = none → refused .noSuch)
            ∧ ∀ f : Option Nat, (blank ∧ f = none ∨ ∃ q, callOf filter = some q ∧ q ≠ s.ownCall ∧ f = findCall s.book q ∧ f ≠ none) →
                let clamped := max 1 (min 4 count.toNat)
                let stood := min clamped (4 - (s.lists.get p).length)
                let stands := if stood = 0 then none else f
                let after : Channel := { c with state := if stood = 0 then .ready else .asking stood f }
                ∃ t, exec (.ask p tag count filter) s = .next t
                  ∧ t.behind = { s with channels := s.channels.set p after }.behind
                  ∧ t.units.get p = { s.units.get p with service := some (
                      if t.pairsOf p = [] then .replying frame (replyFrame frame .ok
                        (be8 clamped ++ be8 stood ++ (match stands with | some e => be8 e | none => be8 0xFF) ++ be8 0)) 0
                      else .asking frame clamped stood stands []) }
                  ∧ (∀ q, q ≠ p → t.lineFollows s q) ∧ t.outputsAgree))
    ∧ (∀ (u : State) (f : Frame) (clamped stood : Nat) (filter : Option Nat) (records : List (List Byte)),
        u.closeAsk p (some (.asking f clamped stood filter records)) = some (
          if u.pairsOf p = [] then .replying f (replyFrame f .ok
            (be8 clamped ++ be8 stood ++ (match filter with | some e => be8 e | none => be8 0xFF) ++ be8 records.length ++ records.flatten)) 0
          else .asking f clamped stood filter records))
    ∧ (∀ n f, c.state = .asking n f →
        withdraws { s with channels := s.channels.set p { c with state := .ready } } .ok (be8 n))
    ∧ (c.state = .ready → withdraws s .ok (be8 0))
    ∧ (c.state = .closed ∨ c.state = .lapsed → withdraws s .state [])

/-! ### Hand-offs -/

/-- EXTEND: the refusals of R130 in their order, then a deadline of now plus the hand-off time and one extension more, and nothing else (R129,
R130). -/
def Obligations.ExtendMovesTheDeadline : Prop :=
  ∀ (p : Port) (tag index : Byte) (number : Half) (s : State), s.freeAt p = true →
    let answered := fun (u : State) (r : Result) (fields : List Byte) => ∃ t, exec (.extend p tag number index) s = .next t
      ∧ t.behind = u.behind ∧ t.answers s p ⟨0x19, tag, [hiByte number, loByte number, index]⟩ r fields
    let n := number.toNat
    let i := index.toNat
    (n = 0 ∨ 9999 < n ∨ 7 < i → answered s .badField [])
    ∧ (1 ≤ n → n ≤ 9999 → i ≤ 7 →
        (s.copyAt n i = none → answered s .noSuch [])
        ∧ ∀ m c, s.findMsg n = some m → m.copies[i]? = some c →
            (m.phase = .opened → answered s .noSuch [])
            ∧ (m.phase ≠ .opened →
                (s.entryOf p n i = none → answered s .notHeld [])
                ∧ ∀ e, s.entryOf p n i = some e →
                    (e.withdrawing = true → answered s .state [])
                    ∧ (e.withdrawing = false → 2 ≤ e.extensions → answered s .limit [])
                    ∧ (e.withdrawing = false → e.extensions < 2 →
                        let deadline := min (s.clock + s.handOff.times.get m.prec) 4294967295
                        answered { s with lists := s.lists.set p ((s.lists.get p).map fun x =>
                            if x.number = n ∧ x.index = i then { x with deadline := deadline, extensions := x.extensions + 1 } else x) } .ok
                          (be32 deadline ++ be8 (e.extensions + 1)))))

/-- TAKE LOCAL: FULL with the list size, NONE when no local copy of a FILED message waits, otherwise the highest-ranked one is handed to the desk
as a grant hands a copy to a channel, and the reply is its grant record, field by field (R142, R143, R186). -/
def Obligations.TakeLocalHandsOverTheHighestRanked : Prop :=
  ∀ (p : Port) (tag : Byte) (s : State), s.freeAt p = true → s.roles.get p = .console ∨ s.roles.get p = .intake → s.numbersDistinct →
    let answered := fun (t : State) (r : Result) (fields : List Byte) => exec (.takeLocal p tag) s = .next t
      ∧ t.answers s p ⟨0x28, tag, []⟩ r fields
    let candidate := fun (m : Message) (i : Nat) (c : Copy) =>
      m ∈ s.store ∧ m.copies[i]? = some c ∧ (∃ f, m.phase = .filed f) ∧ c.station = 0 ∧ c.state = some .waiting
    (4 ≤ (s.lists.get p).length → ∃ t, answered t .full (be8 (s.lists.get p).length) ∧ t.behind = s.behind)
    ∧ ((s.lists.get p).length < 4 →
        ((∀ m i c, ¬ candidate m i c) → ∃ t, answered t .none_ [] ∧ t.behind = s.behind)
        ∧ ∀ m i c, candidate m i c →
            (∀ n j d, candidate n j d →
              standsBefore (s.rankOf p ⟨n, j, d⟩) ⟨n, j, d⟩ (s.rankOf p ⟨m, i, c⟩) ⟨m, i, c⟩ = false) →
            s.entryOf p m.number i = none →
            let deadline := min (s.clock + s.handOff.times.get m.prec) 4294967295
            let e : Entry := ⟨m.number, i, deadline, 0, false⟩
            ∃ t, answered t .ok (be16 m.number ++ be8 i ++ (match s.station 0 with | some st => st.call | none => List.replicate 7 0x20)
                ++ be8 (precCode m.prec) ++ be8 (c.uncertain.toNat + 2 * c.pinned.isSome.toNat) ++ be8 c.attempts ++ be8 0 ++ be32 deadline
                ++ be16 m.body.length ++ be16 m.wordCheck)
              ∧ t.findMsg m.number = some { m with copies := m.copies.set i { c with state := some (.taken p) } }
              ∧ (∀ k, k ≠ m.number → t.findMsg k = s.findMsg k)
              ∧ t.lists = s.lists.set p (s.lists.get p ++ [e])
              ∧ t.behind = { s with store := t.store, lists := t.lists }.behind)

/-- REPORT, refused: BAD_FIELD, NO_SUCH, BAD_FIELD for a local copy relayed or not contacted, and off the port's list NOT_ROLE, NOT_HELD and
ALREADY, in that order; nothing changes (R132). -/
def Obligations.ReportRefusalsComeInOrder : Prop :=
  ∀ (p : Port) (tag index outcome : Byte) (number : Half) (relay : List Byte) (s : State),
    s.freeAt p = true → relay.length = 7 →
    let refused := fun r : Result => ∃ t, exec (.report p tag number index outcome relay) s = .next t ∧ t.behind = s.behind
      ∧ t.answers s p ⟨0x18, tag, hiByte number :: loByte number :: index :: outcome :: relay⟩ r []
    let n := number.toNat
    let i := index.toNat
    let formed := 1 ≤ n ∧ n ≤ 9999 ∧ i ≤ 7 ∧ outcome.toNat ≤ 3 ∧ (outcome.toNat = 1 → callOf relay ≠ none)
    (¬ formed → refused .badField)
    ∧ (formed → s.copyAt n i = none → refused .noSuch)
    ∧ ∀ m c, formed → s.findMsg n = some m → m.copies[i]? = some c →
        (m.phase = .opened → refused .noSuch)
        ∧ (m.phase ≠ .opened → c.station = 0 → outcome.toNat = 1 ∨ outcome.toNat = 2 → refused .badField)
        ∧ (m.phase ≠ .opened → c.station = 0 → outcome.toNat = 0 ∨ outcome.toNat = 3 → s.entryOf p n i = none →
            (s.roles.get p = .channel → refused .notRole)
            ∧ (s.roles.get p ≠ .channel → outcome.toNat = 3 → refused .notHeld)
            ∧ (s.roles.get p ≠ .channel → outcome.toNat = 0 → c.terminal = true → refused .already))
        ∧ (m.phase ≠ .opened → c.station ≠ 0 → s.entryOf p n i = none →
            (s.roles.get p ≠ .channel → refused .notRole)
            ∧ (s.roles.get p = .channel → 2 ≤ outcome.toNat → refused .notHeld)
            ∧ (s.roles.get p = .channel → outcome.toNat ≤ 1 → c.terminal = true → refused .already))

/-- The holder's REPORT on an entry of its own list, TAKEN or withdrawing: the copy takes its outcome, the entry goes, the station's grade and
affinity follow a delivery or a failed contact from a channel, the lapse count becomes 0, the outcome is counted. A channel under STEP passes to
HOLD in the same event: its report does what it does with the admin mode at HOLD and the holds for the channel ended. That the third byte of the reply is the
uncertain flag, that a desk's reply ends in 0xFF 0xFF and that attempts hold at 15 are the model's readings, log entries 12, 13 and 17 (R56, R68, R69,
R128, R133, R134, R141). -/
def Obligations.OwnReportClosesTheEntry : Prop :=
  (∀ (p : Port) (tag index outcome : Byte) (number : Half) (relay : List Byte) (s : State) (m : Message) (c : Copy) (e : Entry)
     (o : ReportOutcome),
     s.freeAt p = true → relay.length = 7 → 1 ≤ number.toNat → number.toNat ≤ 9999 → index.toNat ≤ 7 → outcomeOf outcome = some o →
     (o = .relayed → callOf relay ≠ none) → s.findMsg number.toNat = some m → m.copies[index.toNat]? = some c → m.phase ≠ .opened →
     (c.station = 0 → o = .delivered ∨ o = .returned) → s.entryOf p number.toNat index.toNat = some e →
     (c.state = some (if e.withdrawing then .withdrawing p else .taken p)) → (s.roles.get p = .channel → s.admin.get p ≠ .step) →
     let n := number.toNat
     let i := index.toNat
     let limit := s.handOff.limits.get m.prec
     let after : Copy := match o with
       | .delivered => { c with state := some (.delivered p s.clock e.withdrawing), uncertain := false }
       | .relayed => if e.withdrawing then { c with state := some .cancelled }
           else { c with state := some (.relayed p s.clock false ((callOf relay).getD [])), uncertain := false }
       | .noContact => if e.withdrawing then { c with state := some .cancelled }
           else { c with attempts := min 15 (c.attempts + 1), state := some (if limit ≤ min 15 (c.attempts + 1) then .failed else .waiting) }
       | .returned => if e.withdrawing then { c with state := some .cancelled }
           else { c with state := some (if limit ≤ c.attempts then .failed else s.entryState m.prec c) }
     let station := fun st : Station =>
       let st := if after.live then st else { st with waiting := st.waiting - 1 }
       if s.roles.get p = .channel ∧ c.station ≠ 0 then match o with
         | .delivered => { st with grades := st.grades.set p ⟨max 2 (st.grades.get p).value, s.clock⟩, affinity := some ⟨p, s.clock⟩ }
         | .noContact => { st with grades := st.grades.set p ⟨(st.grades.get p).value - 1, s.clock⟩ }
         | .relayed | .returned => st
       else st
     ∃ t, exec (.report p tag number index outcome relay) s = .next t
       ∧ t.copyBecomes s n i after
       ∧ t.lists = s.listsWithout p n i
       ∧ t.book = s.book.modify c.station (Option.map station)
       ∧ t.channels = (if s.roles.get p = .channel then s.channels.set p { s.channels.get p with lapseCount := 0 } else s.channels)
       ∧ t.counters = s.countersWith p (fun k => match o with
           | .delivered => { k with delivered := min (k.delivered + 1) 65535 }
           | .relayed => { k with relayed := min (k.relayed + 1) 65535 }
           | .noContact => { k with noContact := min (k.noContact + 1) 65535 }
           | .returned => { k with returned := min (k.returned + 1) 65535 })
       ∧ (after.state = some .failed → t.status = s.statusAt .copyFailed fun q => s.roles.get q == .console)
       ∧ (after.state ≠ some .failed → o = .returned → c.station = 0 → after.state = some .waiting →
           t.status = s.statusAt .localWaiting fun q => s.roles.get q == .console || s.roles.get q == .intake)
       ∧ (after.state ≠ some .failed → ¬ (o = .returned ∧ c.station = 0 ∧ after.state = some .waiting) → t.status = s.status)
       ∧ t.behind = { s with
           store := t.store, lists := t.lists, book := t.book, channels := t.channels, counters := t.counters, status := t.status }.behind
       ∧ t.answers s p ⟨0x18, tag, hiByte number :: loByte number :: index :: outcome :: relay⟩ .ok
           (be8 after.code ++ be8 after.attempts ++ be8 (if after.uncertain then 1 else 0)
             ++ if s.roles.get p = .channel then be8 0 ++ be8 (adminCode (s.admin.get p)) else [0xFF, 0xFF]))
  ∧ (∀ (p : Port) (tag index outcome : Byte) (number : Half) (relay : List Byte) (s : State) (m : Message) (c : Copy) (e : Entry)
       (o : ReportOutcome),
       s.freeAt p = true → relay.length = 7 → 1 ≤ number.toNat → number.toNat ≤ 9999 → index.toNat ≤ 7 → outcomeOf outcome = some o →
       (o = .relayed → callOf relay ≠ none) → s.findMsg number.toNat = some m → m.copies[index.toNat]? = some c → m.phase ≠ .opened →
       (c.station = 0 → o = .delivered ∨ o = .returned) → s.entryOf p number.toNat index.toNat = some e →
       c.holder = some p → s.roles.get p = .channel → s.admin.get p = .step →
       exec (.report p tag number index outcome relay) s
         = exec (.report p tag number index outcome relay) { s.releaseHolds p with admin := s.admin.set p .hold })

/-- A late REPORT DELIVERED or RELAYED, from a port of the right role that does not hold the copy: the copy takes the outcome, a holder loses its
entry and is told by WITHDRAWN, the reporter's counter goes up, its lapse count and mode stay, and a delivery from a channel sets grade and
affinity. The third byte of the reply as the uncertain flag, 0 here also after a cancel, is the model's reading, log entry 12 (R56, R135). -/
def Obligations.LateReportIsAccepted : Prop :=
  ∀ (p : Port) (tag index outcome : Byte) (number : Half) (relay : List Byte) (s : State) (m : Message) (c : Copy),
    s.freeAt p = true → relay.length = 7 → 1 ≤ number.toNat → number.toNat ≤ 9999 → index.toNat ≤ 7 →
    (outcome.toNat = 0 ∨ outcome.toNat = 1 ∧ callOf relay ≠ none ∧ c.station ≠ 0) →
    s.findMsg number.toNat = some m → m.copies[index.toNat]? = some c → m.phase ≠ .opened →
    s.entryOf p number.toNat index.toNat = none → (if c.station = 0 then s.roles.get p ≠ .channel else s.roles.get p = .channel) →
    c.live = true →
    let n := number.toNat
    let i := index.toNat
    let cancelled := match c.state with | some (.withdrawing _) => true | _ => false
    let after : Copy := { c with
      state := some (if outcome.toNat = 0 then .delivered p s.clock cancelled
        else .relayed p s.clock cancelled ((callOf relay).getD []))
      uncertain := false }
    ∃ t, exec (.report p tag number index outcome relay) s = .next t
      ∧ t.copyBecomes s n i after
      ∧ t.lists = (match c.holder with | some j => s.listsWithout j n i | none => s.lists)
      ∧ (∀ j, c.holder = some j → s.roles.get j ≠ .off → t.status = s.statusWith .withdrawn j)
      ∧ (c.holder = none → t.status = s.status)
      ∧ t.book = s.book.modify c.station (Option.map fun st =>
          let st := { st with waiting := st.waiting - 1 }
          if outcome.toNat = 0 ∧ c.station ≠ 0 then
            { st with grades := st.grades.set p ⟨max 2 (st.grades.get p).value, s.clock⟩, affinity := some ⟨p, s.clock⟩ } else st)
      ∧ t.counters = s.countersWith p (fun k =>
          if outcome.toNat = 0 then { k with delivered := min (k.delivered + 1) 65535 }
          else { k with relayed := min (k.relayed + 1) 65535 })
      ∧ t.behind = { s with
          store := t.store, lists := t.lists, book := t.book, counters := t.counters, status := t.status }.behind
      ∧ t.answers s p ⟨0x18, tag, hiByte number :: loByte number :: index :: outcome :: relay⟩ .lateAccepted
          (be8 after.code ++ be8 after.attempts ++ be8 0)

/-- The expiry of an entry's deadline that does not lapse the channel: a TAKEN copy comes back uncertain, or FAILED at its limit, a withdrawing one
is CANCELLED; the entry goes, WITHDRAWN and the expiry counter are the holder's, the lapse count of a channel goes up by 1 (R69, R73, R131,
R137). Before its deadline, or with the entry gone, nothing happens. That the expiry is a command of the queue is log entry 5. -/
def Obligations.DeadlineExpiryReturnsTheCopy : Prop :=
  ∀ (p : Port) (n i : Nat) (s : State), s.inService = true →
    (s.entryOf p n i = none → ∃ t, exec (.deadlineExpiry p n i) s = .next t ∧ t.follows s ∧ t.behind = s.behind)
    ∧ ∀ (m : Message) (c : Copy) (e : Entry), s.entryOf p n i = some e →
      (s.clock < e.deadline → ∃ t, exec (.deadlineExpiry p n i) s = .next t ∧ t.follows s ∧ t.behind = s.behind)
      ∧ (e.deadline ≤ s.clock → s.findMsg n = some m → m.copies[i]? = some c → s.roles.get p ≠ .off →
          c.state = some (.taken p) ∨ c.state = some (.withdrawing p) →
          (s.roles.get p = .channel → min 7 ((s.channels.get p).lapseCount + 1) < s.handOff.lapseLimit) →
          let failed := c.state = some (.taken p) ∧ s.handOff.limits.get m.prec ≤ c.attempts
          let after : Copy := { c with
            state := some (if c.state = some (.withdrawing p) then .cancelled else if failed then .failed else .waiting)
            uncertain := true }
          ∃ t, exec (.deadlineExpiry p n i) s = .next t ∧ t.follows s
            ∧ t.copyBecomes s n i after
            ∧ t.lists = s.listsWithout p n i
            ∧ t.book = s.book.modify c.station (Option.map fun st =>
                if after.live then st else { st with waiting := st.waiting - 1 })
            ∧ t.counters = s.countersWith p (fun k => { k with expiries := min (k.expiries + 1) 65535 })
            ∧ t.channels = (if s.roles.get p = .channel
                then s.channels.set p { s.channels.get p with lapseCount := min 7 ((s.channels.get p).lapseCount + 1) } else s.channels)
            ∧ (∀ q, t.status.get q = s.status.get q
                ||| (if q = p then eventBit .withdrawn else 0)
                ||| (if failed ∧ s.roles.get q = Role.console then eventBit .copyFailed else 0)
                ||| (if c.station = 0 ∧ after.state = some CopyState.waiting ∧ (s.roles.get q = Role.console ∨ s.roles.get q = Role.intake)
                      then eventBit .localWaiting else 0))
            ∧ t.behind = { s with
                store := t.store, lists := t.lists, book := t.book, counters := t.counters, channels := t.channels
                status := t.status }.behind)

/-- A lapse: the expiry that brings a channel's lapse count to the limit makes the channel LAPSED in the same event, ends its ask, empties its list
and ends the holds for it, counts one expiry and one lapse and raises CHANNEL_LAPSED at the consoles; the admin mode is kept. Where the list's entries are those of
copies that the channel holds, every other list, copy, message and count is as it was: each copy in the list comes back WAITING, FAILED at its limit, or
CANCELLED, and uncertain, its message and its station's waiting count follow, WITHDRAWN is raised at the channel, COPY_FAILED at the consoles if a copy
failed, and no other event (R5, R57, R70, R131, R137, R138). -/
def Obligations.LapseCutsTheChannelOff : Prop :=
  ∀ (p : Port) (n i : Nat) (e : Entry) (s : State),
    s.inService = true → s.roles.get p = .channel → s.entryOf p n i = some e → e.deadline ≤ s.clock →
    s.handOff.lapseLimit ≤ min 7 ((s.channels.get p).lapseCount + 1) →
    ∃ t, exec (.deadlineExpiry p n i) s = .next t ∧ t.follows s
      ∧ t.channels = s.channels.set p ⟨.lapsed, min 7 ((s.channels.get p).lapseCount + 1)⟩
      ∧ t.lists.get p = []
      ∧ (∀ k j c, t.copyAt k j = some c → ∀ ends, c.state ≠ some (.heldFor p ends))
      ∧ t.counters = s.countersWith p (fun k => { k with
          expiries := min (k.expiries + 1) 65535, lapses := min (k.lapses + 1) 65535 })
      ∧ (∀ q, s.roles.get q = .console → (t.status.get q).getLsbD 1 = true)
      ∧ t.admin = s.admin
      ∧ (s.numbersDistinct → ∀ k j x m c, x ∈ s.lists.get p → x.number = k → x.index = j → s.findMsg k = some m → m.copies[j]? = some c →
          c.state = some (.taken p) ∨ c.state = some (.withdrawing p) →
          t.copyAt k j = some { c with
            state := some (if c.state = some (.withdrawing p) then .cancelled
              else if s.handOff.limits.get m.prec ≤ c.attempts then .failed else .waiting)
            uncertain := true })
      ∧ (s.numbersDistinct →
          (∀ x ∈ s.lists.get p, ∃ m f c, s.findMsg x.number = some m ∧ m.phase = .filed f ∧ m.copies[x.index]? = some c ∧ c.station ≠ 0
            ∧ c.state = some (if x.withdrawing then .withdrawing p else .taken p)) →
          let listed := fun k j : Nat => (s.lists.get p).any fun x => x.number == k && x.index == j
          let lost := fun (m : Message) (c : Copy) => ({ c with
            state := some (if c.state = some (.withdrawing p) then .cancelled
              else if s.handOff.limits.get m.prec ≤ c.attempts then .failed else .waiting)
            uncertain := true } : Copy)
          let after := fun (m : Message) (j : Nat) (c : Copy) => if listed m.number j then lost m c else match c.state with
            | some (.heldFor k _) => if k = p then { c with state := some .waiting } else c
            | _ => c
          let comesBack := fun (f : Message → Copy → Bool) (m : Message) => m.copies.zipIdx.countP fun x => listed m.number x.2 && f m x.1
          t.lists = s.lists.set p []
          ∧ t.store.map Message.number = s.store.map Message.number
          ∧ (∀ k m, s.findMsg k = some m → t.findMsg k = some (
              let u := { m with copies := m.copies.mapIdx (after m) }
              if (s.lists.get p).any fun x => x.number == k then Message.rephase s.clock u else u))
          ∧ (∀ e', t.station e' = (s.station e').map fun st => { st with
              waiting := st.waiting - (s.store.map (comesBack fun m c => !(lost m c).live && c.station == e')).sum })
          ∧ ∀ q, t.status.get q = s.status.get q
              ||| (if q = p then eventBit .withdrawn else 0)
              ||| (if s.roles.get q = Role.console then eventBit .channelLapsed else 0)
              ||| (if s.roles.get q = Role.console ∧ 0 < (s.store.map (comesBack fun m c => (lost m c).state == some .failed)).sum
                    then eventBit .copyFailed else 0))
      ∧ t.behind = { s with
          store := t.store, lists := t.lists, book := t.book, counters := t.counters, channels := t.channels
          status := t.status }.behind

/-! ### The console's requests on copies and messages -/

/-- CANCEL of one copy: WAITING and HELD_FOR become CANCELLED, TAKEN becomes WITHDRAWING with its entry marked and its holder told by WITHDRAWN, any
other is refused ALREADY. CANCEL of all copies does so for each, and the reply counts them; the entry of a copy that is WITHDRAWING
already carries its mark, as the law of the entries has it (R75, R76, R77, R121). -/
def Obligations.CancelActsOnCopies : Prop :=
  ∀ (p : Port) (tag selector : Byte) (number : Half) (s : State), s.freeAt p = true → s.roles.get p = .console →
    let n := number.toNat
    let i := selector.toNat
    let answered := fun (t : State) (r : Result) (fields : List Byte) => exec (.cancel p tag number selector) s = .next t
      ∧ t.answers s p ⟨0x38, tag, [hiByte number, loByte number, selector]⟩ r fields
    let refused := fun r : Result => ∃ t, answered t r [] ∧ t.behind = s.behind
    let idle := fun c : Copy => match c.state with | some .waiting | some (.heldFor ..) => true | _ => false
    let taken := fun c : Copy => match c.state with | some (.taken _) => true | _ => false
    let after := fun c : Copy => match c.state with
      | some .waiting | some (.heldFor ..) => { c with state := some .cancelled }
      | some (.taken j) => { c with state := some (.withdrawing j) }
      | _ => c
    (n = 0 ∨ 9999 < n ∨ 7 < i ∧ i ≠ 255 → refused .badField)
    ∧ (1 ≤ n → n ≤ 9999 → i ≤ 7 ∨ i = 255 →
        (s.findMsg n = none → refused .noSuch)
        ∧ ∀ m, s.findMsg n = some m →
            (i ≤ 7 → m.copies[i]? = none → refused .noSuch)
            ∧ (i = 255 → m.phase = .opened → refused .state)
            ∧ (i = 255 → m.phase ≠ .opened → (∀ c ∈ m.copies, idle c = false ∧ taken c = false) → refused .already)
            ∧ (i = 255 → (∃ f, m.phase = .filed f) → (∃ c ∈ m.copies, idle c = true ∨ taken c = true) →
                (∀ j e c, e ∈ s.lists.get j → e.number = n → m.copies[e.index]? = some c → c.state = some (.withdrawing j) →
                  e.withdrawing = true) →
                ∃ t, answered t .ok (be8 (m.copies.countP idle) ++ be8 (m.copies.countP taken)
                    ++ be8 (m.copies.countP fun c => !idle c && !taken c))
                  ∧ (∀ k, k ≠ n → t.findMsg k = s.findMsg k)
                  ∧ t.findMsg n = some (Message.rephase s.clock { m with copies := m.copies.map after })
                  ∧ (∀ e, t.station e = (s.station e).map fun st =>
                      { st with waiting := st.waiting - m.copies.countP fun c => idle c && c.station == e })
                  ∧ (∀ j, t.lists.get j = (s.lists.get j).map fun e =>
                      if e.number = n ∧ m.copies[e.index]?.map Copy.state = some (some (.taken j)) then { e with withdrawing := true } else e)
                  ∧ (∀ j, s.roles.get j ≠ .off → t.status.get j = s.status.get j
                      ||| (if ∃ c ∈ m.copies, c.state = some (.taken j) then eventBit .withdrawn else 0))
                  ∧ t.behind = { s with store := t.store, book := t.book, lists := t.lists, status := t.status }.behind)
            ∧ ∀ c, i ≤ 7 → m.copies[i]? = some c →
                (m.phase = .opened → refused .state)
                ∧ (m.phase ≠ .opened → idle c = false → taken c = false → refused .already)
                ∧ (m.phase ≠ .opened → idle c = true →
                    ∃ t, answered t .ok (be8 7) ∧ t.copyBecomes s n i (after c)
                      ∧ t.book = s.book.modify c.station (Option.map fun st => { st with waiting := st.waiting - 1 })
                      ∧ t.behind = { s with store := t.store, book := t.book }.behind)
                ∧ ∀ j, m.phase ≠ .opened → c.state = some (.taken j) → s.roles.get j ≠ .off →
                    let mark := fun e : Entry => if e.number = n ∧ e.index = i then { e with withdrawing := true } else e
                    ∃ t, answered t .ok (be8 3) ∧ t.copyBecomes s n i (after c)
                      ∧ t.behind = { s with
                          store := t.store
                          lists := s.lists.set j ((s.lists.get j).map mark)
                          status := s.statusWith .withdrawn j }.behind)

/-- PIN: its refusals, then the pin replaced, with a hold for another port ended. REQUEUE: its refusals, then every FAILED copy selected comes back
WAITING or held, with its attempts 0 and its station's count up, and the reply counts them (R80, R81, R83, R84). -/
def Obligations.PinAndRequeueActOnCopies : Prop :=
  ∀ (p : Port) (tag : Byte) (number : Half) (s : State), s.freeAt p = true → s.roles.get p = .console →
    let n := number.toNat
    (∀ index target : Byte,
      let i := index.toNat
      let answered := fun (t : State) (r : Result) (fields : List Byte) => exec (.pin p tag number index target) s = .next t
        ∧ t.answers s p ⟨0x39, tag, [hiByte number, loByte number, index, target]⟩ r fields
      let refused := fun r : Result => ∃ t, answered t r [] ∧ t.behind = s.behind
      (n = 0 ∨ 9999 < n ∨ 7 < i ∨ (target.toNat ≠ 255 ∧ ∀ k, portOf target = some k → s.roles.get k ≠ .channel) → refused .badField)
      ∧ ∀ pinned : Option Port, 1 ≤ n → n ≤ 9999 → i ≤ 7 →
          (if target.toNat = 255 then pinned = none else pinned ≠ none ∧ pinned = portOf target) →
          (∀ k, pinned = some k → s.roles.get k = .channel) →
          (s.copyAt n i = none → refused .noSuch)
          ∧ ∀ m c, s.findMsg n = some m → m.copies[i]? = some c →
              (c.station = 0 → refused .badField)
              ∧ (c.station ≠ 0 → m.phase = .opened ∨ c.code ∈ [4, 5, 7] → refused .state)
              ∧ (c.station ≠ 0 → m.phase ≠ .opened → c.code ∈ [0, 1, 2, 3, 6] →
                  (∀ j e, c.state = some (.withdrawing j) → e ∈ s.lists.get j → e.number = n → e.index = i → e.withdrawing = true) →
                  let after : Copy := { c with
                    pinned := pinned
                    state := match pinned, c.state with
                      | some k, some (.heldFor h ends) => if h = k then some (.heldFor h ends) else some .waiting
                      | _, x => x }
                  ∃ t, answered t .ok (bePort c.pinned ++ bePort pinned ++ be8 after.code)
                    ∧ t.copyBecomes s n i after ∧ t.behind = { s with store := t.store }.behind))
    ∧ ∀ selector : Byte,
      let i := selector.toNat
      let answered := fun (t : State) (r : Result) (fields : List Byte) => exec (.requeue p tag number selector) s = .next t
        ∧ t.answers s p ⟨0x3A, tag, [hiByte number, loByte number, selector]⟩ r fields
      let refused := fun r : Result => ∃ t, answered t r [] ∧ t.behind = s.behind
      let selected := fun (j : Nat) (c : Copy) => (i == 255 || i == j) && c.state == some .failed
      (n = 0 ∨ 9999 < n ∨ 7 < i ∧ i ≠ 255 → refused .badField)
      ∧ (1 ≤ n → n ≤ 9999 → i ≤ 7 ∨ i = 255 →
          (s.findMsg n = none → refused .noSuch)
          ∧ ∀ m, s.findMsg n = some m → m.copies ≠ [] →
              (i ≤ 7 → m.copies[i]? = none → refused .noSuch)
              ∧ (i = 255 ∨ i < m.copies.length →
                  (m.phase = .opened → refused .state)
                  ∧ (m.phase ≠ .opened → (∀ j c, m.copies[j]? = some c → selected j c = false) → refused .state)
                  ∧ (m.phase ≠ .opened → (∃ j c, m.copies[j]? = some c ∧ selected j c = true) →
                      let after := fun (j : Nat) (c : Copy) =>
                        if selected j c then { c with state := some (s.entryState m.prec c), attempts := 0 } else c
                      ∃ t, answered t .ok (be8 (m.copies.zipIdx.countP fun x => selected x.2 x.1)
                          ++ be8 (m.copies.zipIdx.countP fun x => selected x.2 x.1
                            && match s.entryState m.prec x.1 with | .heldFor .. => true | _ => false))
                        ∧ (∀ k, k ≠ n → t.findMsg k = s.findMsg k)
                        ∧ t.findMsg n = some (Message.rephase s.clock { m with copies := m.copies.mapIdx after })
                        ∧ (∀ e, t.station e = (s.station e).map fun st => { st with
                            waiting := st.waiting + m.copies.zipIdx.countP fun x => selected x.2 x.1 && x.1.station == e })
                        ∧ t.behind = { s with store := t.store, book := t.book }.behind)))

/-- PURGE takes a message that is not OPEN and has no copy in a list out of the store, with its key moved to the ring. CLEAR STORE takes all traffic out
and keeps the rest, and tells the ports that lose a hand-off or a lodging (R14, R15, R19, R20, R21). -/
def Obligations.PurgeAndClearStoreRemoveTraffic : Prop :=
  ∀ (p : Port) (tag : Byte) (s : State), s.freeAt p = true → s.roles.get p = .console →
    (∀ number : Half,
      let n := number.toNat
      let answered := fun (t : State) (r : Result) (fields : List Byte) => exec (.purge p tag number) s = .next t
        ∧ t.answers s p ⟨0x3B, tag, [hiByte number, loByte number]⟩ r fields
      let refused := fun r : Result => ∃ t, answered t r [] ∧ t.behind = s.behind
      (n = 0 ∨ 9999 < n → refused .badField)
      ∧ (1 ≤ n → n ≤ 9999 → s.findMsg n = none → refused .noSuch)
      ∧ ∀ m, 1 ≤ n → n ≤ 9999 → s.findMsg n = some m →
          (m.phase = .opened → refused .state)
          ∧ (m.phase ≠ .opened → (∃ c ∈ m.copies, c.holder ≠ none) → refused .inUse)
          ∧ (m.phase ≠ .opened → (∀ c ∈ m.copies, c.holder = none) →
              ∃ t, answered t .ok (be16 n ++ be8 m.chain.length ++ be8 (m.copies.countP Copy.live))
                ∧ (∀ e, t.station e = (s.station e).map fun st =>
                    { st with waiting := st.waiting - m.copies.countP fun c => c.live && c.station == e })
                ∧ t.behind = { s with
                    store := s.store.filter fun x => x.number != n
                    dupTable := s.dupTable.erase m.key
                    ring := (if s.ring.length < 64 then s.ring else s.ring.drop 1) ++ [m.key]
                    book := t.book, prevLow := t.low, status := s.statusIfLow t.low }.behind))
    ∧ let cleared := fun st : Station => { st with waiting := 0 }
      ∃ t, exec (.clearStore p tag) s = .next t
      ∧ t.answers s p ⟨0x3D, tag, []⟩ .ok (be8 s.store.length ++ be8 (Port.all.map fun q => (s.lists.get q).length).sum)
      ∧ (∀ q, s.roles.get q ≠ .off → t.status.get q = s.status.get q
          ||| (if s.lists.get q ≠ [] then eventBit .withdrawn else 0)
          ||| (if s.lodges.get q ≠ none ∨ s.roles.get q = .console ∧ s.lodges ≠ .same none then eventBit .openExpired else 0))
      ∧ t.behind = { s with
          store := [], dupTable := [], ring := [], lodges := .same none, lists := .same []
          book := s.book.map (Option.map cleared)
          prevLow := false, status := t.status }.behind

/-! ### Time, supplies and start-up -/

/-- The store clock goes up by 1 at a tick while main power is present and holds at its maximum. The backup supply lost sets the latch while main power
is absent. Main power lost leaves the retained domain and the latch; that every output is deasserted then is the model's value of a part without power, log
entry 8 (R1, R177, R178). -/
def Obligations.ClockAndSuppliesAct : Prop :=
  ∀ s : State,
    (s.power ≠ .unpowered →
      exec .storeClockTick s = .next { s with clock := min (s.clock + 1) 4294967295 }
      ∧ exec .backupSupplyLost s = .next s
      ∧ ∃ t, exec .mainPowerLost s = .next t ∧ t.power = .unpowered ∧ t.attention = .same false
        ∧ t.annOut = ⟨false, false, false, false⟩
        ∧ t.behind = { s with
            power := .unpowered, roles := t.roles, rate := t.rate, lodges := t.lodges, lists := t.lists, channels := t.channels
            firstPtr := t.firstPtr, tierBPtr := t.tierBPtr, streak := t.streak, status := t.status, enable := t.enable
            prevLow := t.prevLow, recovered := t.recovered }.behind)
    ∧ (s.power = .unpowered →
      exec .storeClockTick s = .next s ∧ exec .backupSupplyLost s = .next { s with latch := true } ∧ exec .mainPowerLost s = .next s)

/-- A start-up reads the straps and gives what is not retained its start values. Main power applied starts cold when the latch is set or the retained domain
was never powered, with the defaults of every retained item, and warm otherwise; RESET starts warm, whatever the latch. Main power applied to a part
that has it, and RESET at one that has none, start nothing. That the straps and all the steps come with one command, and that a RESET without main power is remembered
in resetHeld, is the model's choice, log entry 8 (R154, R155, R170, R178, R180, R181). -/
def Obligations.StartUpsGiveTheirValues : Prop :=
  ∀ (x : Straps) (s : State),
    let role := fun p : Port => match x.roles.get p with
      | ⟨false, false⟩ => Role.off | ⟨false, true⟩ => Role.intake | ⟨true, false⟩ => Role.channel | ⟨true, true⟩ => Role.console
    let started := fun t : State =>
      (∀ p, t.roles.get p = role p ∧ t.enable.get p = routedSet (role p))
      ∧ t.rate = (match x.rate with
        | ⟨false, false⟩ => .baud19200 | ⟨false, true⟩ => .baud38400 | ⟨true, false⟩ => .baud57600 | ⟨true, true⟩ => .baud115200)
      ∧ t.units = .same { receiver := .off, service := none, held := none, lastFault := .none_ }
      ∧ t.lodges = .same none ∧ t.lists = .same [] ∧ t.channels = .same ⟨.closed, 0⟩ ∧ t.firstPtr = none ∧ t.tierBPtr = none
      ∧ t.streak = none ∧ t.status = .same 0 ∧ t.prevLow = false
      ∧ t.attention = .same false ∧ t.annOut = ⟨false, false, false, false⟩ ∧ t.pending = s.pending
    let kept := fun t : State =>
      (∃ failed, t.power = .startUp true failed)
      ∧ t.clock = s.clock ∧ t.lastNumber = s.lastNumber ∧ t.filingCount = s.filingCount ∧ t.ring = s.ring ∧ t.storeSet = s.storeSet
      ∧ t.ranking = s.ranking ∧ t.dispatch = s.dispatch ∧ t.handOff = s.handOff ∧ t.annFns = s.annFns ∧ t.admin = s.admin
      ∧ t.counters = s.counters ∧ t.totals = s.totals ∧ t.latch = s.latch ∧ t.everPowered = s.everPowered
    (s.power = .unpowered → s.latch = true ∨ s.everPowered = false →
      ∃ t, exec (.mainPowerApplied x) s = .next t ∧ started t ∧ t.power = .startUp false false ∧ t.latch = false ∧ t.everPowered = true
        ∧ t.resetHeld = s.resetHeld ∧ t.clock = 0 ∧ t.store = [] ∧ t.lastNumber = 0 ∧ t.filingCount = 0 ∧ t.dupTable = [] ∧ t.ring = []
        ∧ t.book = some { call := List.replicate 7 0x20, kind := .set, created := 0, grades := .same ⟨0, 0⟩, affinity := none, waiting := 0 }
            :: List.replicate 63 none
        ∧ t.storeSet = ⟨true, 90⟩ ∧ t.ranking = ⟨⟨8, 4, 2, 1⟩, 40, 20⟩ ∧ t.dispatch = ⟨.same .a, .same 3, 60, 30⟩
        ∧ t.handOff = ⟨⟨300, 600, 1200, 1800⟩, ⟨15, 8, 5, 3⟩, 3⟩ ∧ t.annFns = ⟨.lifeOpen, .failedHeld, .lapsedAny, .storeLow⟩
        ∧ t.admin = .same .none_ ∧ t.counters = .same ⟨0, 0, 0, 0, 0, 0, 0⟩ ∧ t.totals = ⟨0, 0, 0⟩ ∧ t.recovered = 0)
    ∧ (s.power = .unpowered → s.latch = false → s.everPowered = true →
      ∃ t, exec (.mainPowerApplied x) s = .next t ∧ started t ∧ kept t ∧ t.resetHeld = s.resetHeld)
    ∧ (s.power ≠ .unpowered → exec (.mainPowerApplied x) s = .next s)
    ∧ (s.power ≠ .unpowered → ∃ t, exec (.resetAsserted x) s = .next t ∧ started t ∧ kept t ∧ t.resetHeld = true)
    ∧ (s.power = .unpowered → exec (.resetAsserted x) s = .next { s with resetHeld := true })

/-- What a warm start does to the retained store and book: OPEN messages go with their keys, copies in flight come back uncertain:
WAITING, FAILED at their limit, or CANCELLED where they were being withdrawn; holds end, pins, grades and affinities at ports that are no CHANNEL
ports go, the waiting counts are counted again and the recovery count says how many copies were in flight (R54, R59, R82, R181, R182). -/
def Obligations.RecoveryPassActsOnTheStore : Prop :=
  ∀ (x : Straps) (s t : State),
    (s.power ≠ .unpowered ∧ exec (.resetAsserted x) s = .next t
      ∨ s.power = .unpowered ∧ s.latch = false ∧ s.everPowered = true ∧ exec (.mainPowerApplied x) s = .next t) →
    let channel := fun k : Port => t.roles.get k == Role.channel
    let recover := fun (m : Message) (c : Copy) =>
      ({ c with
        pinned := c.pinned.filter channel
        uncertain := c.uncertain || c.holder.isSome
        state := match c.state with
          | some (.heldFor ..) => some .waiting
          | some (.taken _) => some (if s.handOff.limits.get m.prec ≤ c.attempts then .failed else .waiting)
          | some (.withdrawing _) => some .cancelled
          | y => y } : Copy)
    t.store = ((s.store.filter fun m => m.phase ≠ .opened).map fun m =>
        Message.rephase s.clock { m with copies := m.copies.map (recover m) })
    ∧ (s.dupTable.Perm (s.store.map Message.key) → t.dupTable.Perm (t.store.map Message.key))
    ∧ t.recovered = (s.store.map fun m => m.copies.countP fun c => c.holder.isSome).sum
    ∧ (t.power = .startUp true true ↔ ∃ m ∈ s.store, m.phase ≠ .opened ∧ ∃ c ∈ m.copies,
        c.state ≠ some .failed ∧ (recover m c).state = some .failed)
    ∧ (∀ e, t.station e = (s.station e).map fun st => { st with
        grades := .build fun k => if channel k then st.grades.get k else ⟨0, s.clock⟩
        affinity := st.affinity.filter fun a => channel a.port
        waiting := (t.store.map fun m => m.copies.countP fun c => c.live && c.station == e).sum })

/-- The end of a start-up, once RESET is not asserted: the events of a warm start and of a low store are raised at the consoles, every receiver of a port
that is not OFF hunts, every grade whose decay deadline has been reached falls by 1 before anything else is served, the outputs take their levels. While
RESET is held, start-up goes on; outside a start-up there is none to end. That START_UP_END carries the level of RESET, takes the decays in its own event and
does nothing outside a start-up is the model's choice, log entry 8 (R13, R58, R179, R183). -/
def Obligations.StartUpEndBeginsService : Prop :=
  (∀ (s : State) (warm failed : Bool), s.power = .startUp warm failed →
    exec (.startUpEnd true) s = .next { s with resetHeld := true }
    ∧ ∃ t, exec (.startUpEnd false) s = .next t
      ∧ (∀ q, t.status.get q = s.status.get q
          ||| (if warm = true ∧ s.roles.get q = .console then eventBit .recovered else 0)
          ||| (if failed = true ∧ s.roles.get q = .console then eventBit .copyFailed else 0)
          ||| (if s.low = true ∧ s.prevLow = false ∧ s.roles.get q = .console then eventBit .storeLow else 0))
      ∧ (∀ q, t.units.get q =
          let u := if s.roles.get q = .off then s.units.get q else { s.units.get q with receiver := .hunting }
          { u with service := t.closeAsk q u.service })
      ∧ t.outputsAgree
      ∧ (∀ (e : Nat) (st : Station), s.station e = some st →
          ∃ u, t.station e = some u ∧ { u with grades := st.grades } = st ∧ ∀ k,
            u.grades.get k =
              if s.roles.get k = .channel ∧ 0 < (st.grades.get k).value ∧ 0 < s.dispatch.decay
                  ∧ min ((st.grades.get k).touched + s.dispatch.decay * 60) 4294967295 ≤ s.clock
              then ⟨(st.grades.get k).value - 1, s.clock⟩ else st.grades.get k)
      ∧ (∀ e, s.station e = none → t.station e = none)
      ∧ t.behind = { s with
          power := .running, resetHeld := false, prevLow := s.low, status := t.status, book := t.book }.behind)
  ∧ ∀ (s : State) (held : Bool), s.power = .unpowered ∨ s.power = .running → exec (.startUpEnd held) s = .next s

/-! ### Invariants -/

/-- Every step keeps the outputs in agreement with the sets and conditions they follow, every status and enable set within its port's routed set, and
the law of the hand-off lists (R121, R168, R170, R173, R175). -/
def Obligations.EventUnitAndListsStayInLaw : Prop :=
  ∀ s t : State, step s = .next t →
    (s.outputsAgree → t.outputsAgree) ∧ (s.eventsRouted → t.eventsRouted) ∧ (s.listsInLaw → t.listsInLaw)

/-- Every step keeps the law of the Traffic Store's numbers and keys (R3, R6, R7, R13, R39). -/
def Obligations.StoreStaysInLaw : Prop :=
  ∀ s t : State, s.storeInLaw → step s = .next t → t.storeInLaw

/-- The reset state meets the invariants, and it is what a cold start comes to: from any part without power whose latch is set or that was never powered,
main power applied with the straps of log entry 1 and the end of the start-up give it, whatever the part held. The straps and the value of the
model's own count are the model's choice, log entries 1 and 3. -/
def Obligations.ResetIsWhereAColdStartEnds : Prop :=
  (State.reset.outputsAgree ∧ State.reset.eventsRouted ∧ State.reset.listsInLaw ∧ State.reset.storeInLaw
    ∧ State.reset.wholeInLaw)
  ∧ ∀ s : State, s.power = .unpowered → s.latch = true ∨ s.everPowered = false → s.pending = [] → s.picks = 0 →
    let straps : Straps :=
      ⟨⟨⟨true, true⟩, ⟨false, false⟩, ⟨false, true⟩, ⟨true, false⟩, ⟨true, false⟩, ⟨true, false⟩⟩, ⟨false, false⟩⟩
    ∃ t, exec (.mainPowerApplied straps) s = .next t ∧ exec (.startUpEnd false) t = .next State.reset

/-- Every step keeps the law of the whole store: the keys of the table and the ring; messages OPEN, FILED and CLOSED as their copies say; the blocks of
the pool; the lodge contexts and the OPEN messages; the waiting counts; the copies and the list entries, which correspond, each once and with its
mark; the attempts below their limits; the affinity holds (R3, R5, R6, R9, R23, R39, R40, R44, R48, R57, R63, R68, R69, R115, R121). -/
def Obligations.WholeStoreStaysInLaw : Prop :=
  ∀ s t : State, s.wholeInLaw → step s = .next t → t.wholeInLaw

end
end

