-- ==== Sys2Proof/Laws/State.lean ====
section
/-! SUPPORT. What each named update does to each field of the state: nothing to every field but its own. The two tables of six
values come first. -/
namespace Sys2Proof.PerPort

variable {α : Type}

/-! ### Values for each port -/

@[simp] theorem get_set_self (t : PerPort α) (p : Port) (v : α) : (t.set p v).get p = v := by cases p <;> rfl
theorem get_set_ne (t : PerPort α) (v : α) : ∀ {p q : Port}, q ≠ p → (t.set p v).get q = t.get q := by
  intro p q h; cases p <;> cases q <;> first | rfl | exact absurd rfl h
theorem get_set (t : PerPort α) (p q : Port) (v : α) : (t.set p v).get q = if q = p then v else t.get q := by
  cases p <;> cases q <;> rfl
@[simp] theorem set_get_self (t : PerPort α) (p : Port) : t.set p (t.get p) = t := by cases p <;> rfl
@[simp] theorem set_set (t : PerPort α) (p : Port) (v w : α) : (t.set p v).set p w = t.set p w := by cases p <;> rfl
@[simp] theorem get_build (f : Port → α) (p : Port) : (build f).get p = f p := by cases p <;> rfl
@[simp] theorem get_same (v : α) (p : Port) : (same v).get p = v := by cases p <;> rfl
theorem ext_get {t u : PerPort α} (h : ∀ p, t.get p = u.get p) : t = u := by
  obtain ⟨a0, a1, a2, a3, a4, a5⟩ := t
  obtain ⟨b0, b1, b2, b3, b4, b5⟩ := u
  have h0 : a0 = b0 := h .p0
  have h1 : a1 = b1 := h .p1
  have h2 : a2 = b2 := h .p2
  have h3 : a3 = b3 := h .p3
  have h4 : a4 = b4 := h .p4
  have h5 : a5 = b5 := h .p5
  subst h0 h1 h2 h3 h4 h5; rfl
@[simp] theorem build_get (t : PerPort α) : build t.get = t := ext_get fun p => by simp
/-- Two tables that differ at one port only. -/
theorem eq_set_of {t u : PerPort α} {p : Port} {v : α} (h : u.get p = v) (g : ∀ q, q ≠ p → u.get q = t.get q) : u = t.set p v :=
  ext_get fun q => by
    by_cases e : q = p
    · subst e; simp [h]
    · rw [g q e, get_set_ne t v e]

end Sys2Proof.PerPort

namespace Sys2Proof.Machine

theorem Port.mem_all (p : Port) : p ∈ Port.all := by cases p <;> decide


/-! ### updUnit -/

@[simp] theorem State.updUnit_power (s : State) (p : Port) (f : PortUnit → PortUnit) : (s.updUnit p f).power = s.power := rfl
@[simp] theorem State.updUnit_resetHeld (s : State) (p : Port) (f : PortUnit → PortUnit) : (s.updUnit p f).resetHeld = s.resetHeld := rfl
@[simp] theorem State.updUnit_latch (s : State) (p : Port) (f : PortUnit → PortUnit) : (s.updUnit p f).latch = s.latch := rfl
@[simp] theorem State.updUnit_everPowered (s : State) (p : Port) (f : PortUnit → PortUnit) : (s.updUnit p f).everPowered = s.everPowered := rfl
@[simp] theorem State.updUnit_clock (s : State) (p : Port) (f : PortUnit → PortUnit) : (s.updUnit p f).clock = s.clock := rfl
@[simp] theorem State.updUnit_store (s : State) (p : Port) (f : PortUnit → PortUnit) : (s.updUnit p f).store = s.store := rfl
@[simp] theorem State.updUnit_lastNumber (s : State) (p : Port) (f : PortUnit → PortUnit) : (s.updUnit p f).lastNumber = s.lastNumber := rfl
@[simp] theorem State.updUnit_filingCount (s : State) (p : Port) (f : PortUnit → PortUnit) : (s.updUnit p f).filingCount = s.filingCount := rfl
@[simp] theorem State.updUnit_dupTable (s : State) (p : Port) (f : PortUnit → PortUnit) : (s.updUnit p f).dupTable = s.dupTable := rfl
@[simp] theorem State.updUnit_ring (s : State) (p : Port) (f : PortUnit → PortUnit) : (s.updUnit p f).ring = s.ring := rfl
@[simp] theorem State.updUnit_book (s : State) (p : Port) (f : PortUnit → PortUnit) : (s.updUnit p f).book = s.book := rfl
@[simp] theorem State.updUnit_storeSet (s : State) (p : Port) (f : PortUnit → PortUnit) : (s.updUnit p f).storeSet = s.storeSet := rfl
@[simp] theorem State.updUnit_ranking (s : State) (p : Port) (f : PortUnit → PortUnit) : (s.updUnit p f).ranking = s.ranking := rfl
@[simp] theorem State.updUnit_dispatch (s : State) (p : Port) (f : PortUnit → PortUnit) : (s.updUnit p f).dispatch = s.dispatch := rfl
@[simp] theorem State.updUnit_handOff (s : State) (p : Port) (f : PortUnit → PortUnit) : (s.updUnit p f).handOff = s.handOff := rfl
@[simp] theorem State.updUnit_annFns (s : State) (p : Port) (f : PortUnit → PortUnit) : (s.updUnit p f).annFns = s.annFns := rfl
@[simp] theorem State.updUnit_admin (s : State) (p : Port) (f : PortUnit → PortUnit) : (s.updUnit p f).admin = s.admin := rfl
@[simp] theorem State.updUnit_counters (s : State) (p : Port) (f : PortUnit → PortUnit) : (s.updUnit p f).counters = s.counters := rfl
@[simp] theorem State.updUnit_totals (s : State) (p : Port) (f : PortUnit → PortUnit) : (s.updUnit p f).totals = s.totals := rfl
@[simp] theorem State.updUnit_roles (s : State) (p : Port) (f : PortUnit → PortUnit) : (s.updUnit p f).roles = s.roles := rfl
@[simp] theorem State.updUnit_rate (s : State) (p : Port) (f : PortUnit → PortUnit) : (s.updUnit p f).rate = s.rate := rfl
@[simp] theorem State.updUnit_units (s : State) (p : Port) (f : PortUnit → PortUnit) : (s.updUnit p f).units = s.units.set p (f (s.units.get p)) := rfl
@[simp] theorem State.updUnit_lodges (s : State) (p : Port) (f : PortUnit → PortUnit) : (s.updUnit p f).lodges = s.lodges := rfl
@[simp] theorem State.updUnit_lists (s : State) (p : Port) (f : PortUnit → PortUnit) : (s.updUnit p f).lists = s.lists := rfl
@[simp] theorem State.updUnit_channels (s : State) (p : Port) (f : PortUnit → PortUnit) : (s.updUnit p f).channels = s.channels := rfl
@[simp] theorem State.updUnit_firstPtr (s : State) (p : Port) (f : PortUnit → PortUnit) : (s.updUnit p f).firstPtr = s.firstPtr := rfl
@[simp] theorem State.updUnit_tierBPtr (s : State) (p : Port) (f : PortUnit → PortUnit) : (s.updUnit p f).tierBPtr = s.tierBPtr := rfl
@[simp] theorem State.updUnit_streak (s : State) (p : Port) (f : PortUnit → PortUnit) : (s.updUnit p f).streak = s.streak := rfl
@[simp] theorem State.updUnit_status (s : State) (p : Port) (f : PortUnit → PortUnit) : (s.updUnit p f).status = s.status := rfl
@[simp] theorem State.updUnit_enable (s : State) (p : Port) (f : PortUnit → PortUnit) : (s.updUnit p f).enable = s.enable := rfl
@[simp] theorem State.updUnit_attention (s : State) (p : Port) (f : PortUnit → PortUnit) : (s.updUnit p f).attention = s.attention := rfl
@[simp] theorem State.updUnit_annOut (s : State) (p : Port) (f : PortUnit → PortUnit) : (s.updUnit p f).annOut = s.annOut := rfl
@[simp] theorem State.updUnit_prevLow (s : State) (p : Port) (f : PortUnit → PortUnit) : (s.updUnit p f).prevLow = s.prevLow := rfl
@[simp] theorem State.updUnit_recovered (s : State) (p : Port) (f : PortUnit → PortUnit) : (s.updUnit p f).recovered = s.recovered := rfl
@[simp] theorem State.updUnit_picks (s : State) (p : Port) (f : PortUnit → PortUnit) : (s.updUnit p f).picks = s.picks := rfl
@[simp] theorem State.updUnit_pending (s : State) (p : Port) (f : PortUnit → PortUnit) : (s.updUnit p f).pending = s.pending := rfl

/-! ### updCounters -/

@[simp] theorem State.updCounters_power (s : State) (p : Port) (f : Counters → Counters) : (s.updCounters p f).power = s.power := rfl
@[simp] theorem State.updCounters_resetHeld (s : State) (p : Port) (f : Counters → Counters) : (s.updCounters p f).resetHeld = s.resetHeld := rfl
@[simp] theorem State.updCounters_latch (s : State) (p : Port) (f : Counters → Counters) : (s.updCounters p f).latch = s.latch := rfl
@[simp] theorem State.updCounters_everPowered (s : State) (p : Port) (f : Counters → Counters) : (s.updCounters p f).everPowered = s.everPowered := rfl
@[simp] theorem State.updCounters_clock (s : State) (p : Port) (f : Counters → Counters) : (s.updCounters p f).clock = s.clock := rfl
@[simp] theorem State.updCounters_store (s : State) (p : Port) (f : Counters → Counters) : (s.updCounters p f).store = s.store := rfl
@[simp] theorem State.updCounters_lastNumber (s : State) (p : Port) (f : Counters → Counters) : (s.updCounters p f).lastNumber = s.lastNumber := rfl
@[simp] theorem State.updCounters_filingCount (s : State) (p : Port) (f : Counters → Counters) : (s.updCounters p f).filingCount = s.filingCount := rfl
@[simp] theorem State.updCounters_dupTable (s : State) (p : Port) (f : Counters → Counters) : (s.updCounters p f).dupTable = s.dupTable := rfl
@[simp] theorem State.updCounters_ring (s : State) (p : Port) (f : Counters → Counters) : (s.updCounters p f).ring = s.ring := rfl
@[simp] theorem State.updCounters_book (s : State) (p : Port) (f : Counters → Counters) : (s.updCounters p f).book = s.book := rfl
@[simp] theorem State.updCounters_storeSet (s : State) (p : Port) (f : Counters → Counters) : (s.updCounters p f).storeSet = s.storeSet := rfl
@[simp] theorem State.updCounters_ranking (s : State) (p : Port) (f : Counters → Counters) : (s.updCounters p f).ranking = s.ranking := rfl
@[simp] theorem State.updCounters_dispatch (s : State) (p : Port) (f : Counters → Counters) : (s.updCounters p f).dispatch = s.dispatch := rfl
@[simp] theorem State.updCounters_handOff (s : State) (p : Port) (f : Counters → Counters) : (s.updCounters p f).handOff = s.handOff := rfl
@[simp] theorem State.updCounters_annFns (s : State) (p : Port) (f : Counters → Counters) : (s.updCounters p f).annFns = s.annFns := rfl
@[simp] theorem State.updCounters_admin (s : State) (p : Port) (f : Counters → Counters) : (s.updCounters p f).admin = s.admin := rfl
@[simp] theorem State.updCounters_counters (s : State) (p : Port) (f : Counters → Counters) : (s.updCounters p f).counters = s.counters.set p (f (s.counters.get p)) := rfl
@[simp] theorem State.updCounters_totals (s : State) (p : Port) (f : Counters → Counters) : (s.updCounters p f).totals = s.totals := rfl
@[simp] theorem State.updCounters_roles (s : State) (p : Port) (f : Counters → Counters) : (s.updCounters p f).roles = s.roles := rfl
@[simp] theorem State.updCounters_rate (s : State) (p : Port) (f : Counters → Counters) : (s.updCounters p f).rate = s.rate := rfl
@[simp] theorem State.updCounters_units (s : State) (p : Port) (f : Counters → Counters) : (s.updCounters p f).units = s.units := rfl
@[simp] theorem State.updCounters_lodges (s : State) (p : Port) (f : Counters → Counters) : (s.updCounters p f).lodges = s.lodges := rfl
@[simp] theorem State.updCounters_lists (s : State) (p : Port) (f : Counters → Counters) : (s.updCounters p f).lists = s.lists := rfl
@[simp] theorem State.updCounters_channels (s : State) (p : Port) (f : Counters → Counters) : (s.updCounters p f).channels = s.channels := rfl
@[simp] theorem State.updCounters_firstPtr (s : State) (p : Port) (f : Counters → Counters) : (s.updCounters p f).firstPtr = s.firstPtr := rfl
@[simp] theorem State.updCounters_tierBPtr (s : State) (p : Port) (f : Counters → Counters) : (s.updCounters p f).tierBPtr = s.tierBPtr := rfl
@[simp] theorem State.updCounters_streak (s : State) (p : Port) (f : Counters → Counters) : (s.updCounters p f).streak = s.streak := rfl
@[simp] theorem State.updCounters_status (s : State) (p : Port) (f : Counters → Counters) : (s.updCounters p f).status = s.status := rfl
@[simp] theorem State.updCounters_enable (s : State) (p : Port) (f : Counters → Counters) : (s.updCounters p f).enable = s.enable := rfl
@[simp] theorem State.updCounters_attention (s : State) (p : Port) (f : Counters → Counters) : (s.updCounters p f).attention = s.attention := rfl
@[simp] theorem State.updCounters_annOut (s : State) (p : Port) (f : Counters → Counters) : (s.updCounters p f).annOut = s.annOut := rfl
@[simp] theorem State.updCounters_prevLow (s : State) (p : Port) (f : Counters → Counters) : (s.updCounters p f).prevLow = s.prevLow := rfl
@[simp] theorem State.updCounters_recovered (s : State) (p : Port) (f : Counters → Counters) : (s.updCounters p f).recovered = s.recovered := rfl
@[simp] theorem State.updCounters_picks (s : State) (p : Port) (f : Counters → Counters) : (s.updCounters p f).picks = s.picks := rfl
@[simp] theorem State.updCounters_pending (s : State) (p : Port) (f : Counters → Counters) : (s.updCounters p f).pending = s.pending := rfl

/-! ### updChannel -/

@[simp] theorem State.updChannel_power (s : State) (p : Port) (f : Channel → Channel) : (s.updChannel p f).power = s.power := rfl
@[simp] theorem State.updChannel_resetHeld (s : State) (p : Port) (f : Channel → Channel) : (s.updChannel p f).resetHeld = s.resetHeld := rfl
@[simp] theorem State.updChannel_latch (s : State) (p : Port) (f : Channel → Channel) : (s.updChannel p f).latch = s.latch := rfl
@[simp] theorem State.updChannel_everPowered (s : State) (p : Port) (f : Channel → Channel) : (s.updChannel p f).everPowered = s.everPowered := rfl
@[simp] theorem State.updChannel_clock (s : State) (p : Port) (f : Channel → Channel) : (s.updChannel p f).clock = s.clock := rfl
@[simp] theorem State.updChannel_store (s : State) (p : Port) (f : Channel → Channel) : (s.updChannel p f).store = s.store := rfl
@[simp] theorem State.updChannel_lastNumber (s : State) (p : Port) (f : Channel → Channel) : (s.updChannel p f).lastNumber = s.lastNumber := rfl
@[simp] theorem State.updChannel_filingCount (s : State) (p : Port) (f : Channel → Channel) : (s.updChannel p f).filingCount = s.filingCount := rfl
@[simp] theorem State.updChannel_dupTable (s : State) (p : Port) (f : Channel → Channel) : (s.updChannel p f).dupTable = s.dupTable := rfl
@[simp] theorem State.updChannel_ring (s : State) (p : Port) (f : Channel → Channel) : (s.updChannel p f).ring = s.ring := rfl
@[simp] theorem State.updChannel_book (s : State) (p : Port) (f : Channel → Channel) : (s.updChannel p f).book = s.book := rfl
@[simp] theorem State.updChannel_storeSet (s : State) (p : Port) (f : Channel → Channel) : (s.updChannel p f).storeSet = s.storeSet := rfl
@[simp] theorem State.updChannel_ranking (s : State) (p : Port) (f : Channel → Channel) : (s.updChannel p f).ranking = s.ranking := rfl
@[simp] theorem State.updChannel_dispatch (s : State) (p : Port) (f : Channel → Channel) : (s.updChannel p f).dispatch = s.dispatch := rfl
@[simp] theorem State.updChannel_handOff (s : State) (p : Port) (f : Channel → Channel) : (s.updChannel p f).handOff = s.handOff := rfl
@[simp] theorem State.updChannel_annFns (s : State) (p : Port) (f : Channel → Channel) : (s.updChannel p f).annFns = s.annFns := rfl
@[simp] theorem State.updChannel_admin (s : State) (p : Port) (f : Channel → Channel) : (s.updChannel p f).admin = s.admin := rfl
@[simp] theorem State.updChannel_counters (s : State) (p : Port) (f : Channel → Channel) : (s.updChannel p f).counters = s.counters := rfl
@[simp] theorem State.updChannel_totals (s : State) (p : Port) (f : Channel → Channel) : (s.updChannel p f).totals = s.totals := rfl
@[simp] theorem State.updChannel_roles (s : State) (p : Port) (f : Channel → Channel) : (s.updChannel p f).roles = s.roles := rfl
@[simp] theorem State.updChannel_rate (s : State) (p : Port) (f : Channel → Channel) : (s.updChannel p f).rate = s.rate := rfl
@[simp] theorem State.updChannel_units (s : State) (p : Port) (f : Channel → Channel) : (s.updChannel p f).units = s.units := rfl
@[simp] theorem State.updChannel_lodges (s : State) (p : Port) (f : Channel → Channel) : (s.updChannel p f).lodges = s.lodges := rfl
@[simp] theorem State.updChannel_lists (s : State) (p : Port) (f : Channel → Channel) : (s.updChannel p f).lists = s.lists := rfl
@[simp] theorem State.updChannel_channels (s : State) (p : Port) (f : Channel → Channel) : (s.updChannel p f).channels = s.channels.set p (f (s.channels.get p)) := rfl
@[simp] theorem State.updChannel_firstPtr (s : State) (p : Port) (f : Channel → Channel) : (s.updChannel p f).firstPtr = s.firstPtr := rfl
@[simp] theorem State.updChannel_tierBPtr (s : State) (p : Port) (f : Channel → Channel) : (s.updChannel p f).tierBPtr = s.tierBPtr := rfl
@[simp] theorem State.updChannel_streak (s : State) (p : Port) (f : Channel → Channel) : (s.updChannel p f).streak = s.streak := rfl
@[simp] theorem State.updChannel_status (s : State) (p : Port) (f : Channel → Channel) : (s.updChannel p f).status = s.status := rfl
@[simp] theorem State.updChannel_enable (s : State) (p : Port) (f : Channel → Channel) : (s.updChannel p f).enable = s.enable := rfl
@[simp] theorem State.updChannel_attention (s : State) (p : Port) (f : Channel → Channel) : (s.updChannel p f).attention = s.attention := rfl
@[simp] theorem State.updChannel_annOut (s : State) (p : Port) (f : Channel → Channel) : (s.updChannel p f).annOut = s.annOut := rfl
@[simp] theorem State.updChannel_prevLow (s : State) (p : Port) (f : Channel → Channel) : (s.updChannel p f).prevLow = s.prevLow := rfl
@[simp] theorem State.updChannel_recovered (s : State) (p : Port) (f : Channel → Channel) : (s.updChannel p f).recovered = s.recovered := rfl
@[simp] theorem State.updChannel_picks (s : State) (p : Port) (f : Channel → Channel) : (s.updChannel p f).picks = s.picks := rfl
@[simp] theorem State.updChannel_pending (s : State) (p : Port) (f : Channel → Channel) : (s.updChannel p f).pending = s.pending := rfl

/-! ### updMsg -/

@[simp] theorem State.updMsg_power (s : State) (n : Nat) (f : Message → Message) : (s.updMsg n f).power = s.power := rfl
@[simp] theorem State.updMsg_resetHeld (s : State) (n : Nat) (f : Message → Message) : (s.updMsg n f).resetHeld = s.resetHeld := rfl
@[simp] theorem State.updMsg_latch (s : State) (n : Nat) (f : Message → Message) : (s.updMsg n f).latch = s.latch := rfl
@[simp] theorem State.updMsg_everPowered (s : State) (n : Nat) (f : Message → Message) : (s.updMsg n f).everPowered = s.everPowered := rfl
@[simp] theorem State.updMsg_clock (s : State) (n : Nat) (f : Message → Message) : (s.updMsg n f).clock = s.clock := rfl
@[simp] theorem State.updMsg_store (s : State) (n : Nat) (f : Message → Message) : (s.updMsg n f).store = s.store.map fun m => if m.number == n then f m else m := rfl
@[simp] theorem State.updMsg_lastNumber (s : State) (n : Nat) (f : Message → Message) : (s.updMsg n f).lastNumber = s.lastNumber := rfl
@[simp] theorem State.updMsg_filingCount (s : State) (n : Nat) (f : Message → Message) : (s.updMsg n f).filingCount = s.filingCount := rfl
@[simp] theorem State.updMsg_dupTable (s : State) (n : Nat) (f : Message → Message) : (s.updMsg n f).dupTable = s.dupTable := rfl
@[simp] theorem State.updMsg_ring (s : State) (n : Nat) (f : Message → Message) : (s.updMsg n f).ring = s.ring := rfl
@[simp] theorem State.updMsg_book (s : State) (n : Nat) (f : Message → Message) : (s.updMsg n f).book = s.book := rfl
@[simp] theorem State.updMsg_storeSet (s : State) (n : Nat) (f : Message → Message) : (s.updMsg n f).storeSet = s.storeSet := rfl
@[simp] theorem State.updMsg_ranking (s : State) (n : Nat) (f : Message → Message) : (s.updMsg n f).ranking = s.ranking := rfl
@[simp] theorem State.updMsg_dispatch (s : State) (n : Nat) (f : Message → Message) : (s.updMsg n f).dispatch = s.dispatch := rfl
@[simp] theorem State.updMsg_handOff (s : State) (n : Nat) (f : Message → Message) : (s.updMsg n f).handOff = s.handOff := rfl
@[simp] theorem State.updMsg_annFns (s : State) (n : Nat) (f : Message → Message) : (s.updMsg n f).annFns = s.annFns := rfl
@[simp] theorem State.updMsg_admin (s : State) (n : Nat) (f : Message → Message) : (s.updMsg n f).admin = s.admin := rfl
@[simp] theorem State.updMsg_counters (s : State) (n : Nat) (f : Message → Message) : (s.updMsg n f).counters = s.counters := rfl
@[simp] theorem State.updMsg_totals (s : State) (n : Nat) (f : Message → Message) : (s.updMsg n f).totals = s.totals := rfl
@[simp] theorem State.updMsg_roles (s : State) (n : Nat) (f : Message → Message) : (s.updMsg n f).roles = s.roles := rfl
@[simp] theorem State.updMsg_rate (s : State) (n : Nat) (f : Message → Message) : (s.updMsg n f).rate = s.rate := rfl
@[simp] theorem State.updMsg_units (s : State) (n : Nat) (f : Message → Message) : (s.updMsg n f).units = s.units := rfl
@[simp] theorem State.updMsg_lodges (s : State) (n : Nat) (f : Message → Message) : (s.updMsg n f).lodges = s.lodges := rfl
@[simp] theorem State.updMsg_lists (s : State) (n : Nat) (f : Message → Message) : (s.updMsg n f).lists = s.lists := rfl
@[simp] theorem State.updMsg_channels (s : State) (n : Nat) (f : Message → Message) : (s.updMsg n f).channels = s.channels := rfl
@[simp] theorem State.updMsg_firstPtr (s : State) (n : Nat) (f : Message → Message) : (s.updMsg n f).firstPtr = s.firstPtr := rfl
@[simp] theorem State.updMsg_tierBPtr (s : State) (n : Nat) (f : Message → Message) : (s.updMsg n f).tierBPtr = s.tierBPtr := rfl
@[simp] theorem State.updMsg_streak (s : State) (n : Nat) (f : Message → Message) : (s.updMsg n f).streak = s.streak := rfl
@[simp] theorem State.updMsg_status (s : State) (n : Nat) (f : Message → Message) : (s.updMsg n f).status = s.status := rfl
@[simp] theorem State.updMsg_enable (s : State) (n : Nat) (f : Message → Message) : (s.updMsg n f).enable = s.enable := rfl
@[simp] theorem State.updMsg_attention (s : State) (n : Nat) (f : Message → Message) : (s.updMsg n f).attention = s.attention := rfl
@[simp] theorem State.updMsg_annOut (s : State) (n : Nat) (f : Message → Message) : (s.updMsg n f).annOut = s.annOut := rfl
@[simp] theorem State.updMsg_prevLow (s : State) (n : Nat) (f : Message → Message) : (s.updMsg n f).prevLow = s.prevLow := rfl
@[simp] theorem State.updMsg_recovered (s : State) (n : Nat) (f : Message → Message) : (s.updMsg n f).recovered = s.recovered := rfl
@[simp] theorem State.updMsg_picks (s : State) (n : Nat) (f : Message → Message) : (s.updMsg n f).picks = s.picks := rfl
@[simp] theorem State.updMsg_pending (s : State) (n : Nat) (f : Message → Message) : (s.updMsg n f).pending = s.pending := rfl

/-! ### updStation -/

@[simp] theorem State.updStation_power (s : State) (e : Nat) (f : Station → Station) : (s.updStation e f).power = s.power := rfl
@[simp] theorem State.updStation_resetHeld (s : State) (e : Nat) (f : Station → Station) : (s.updStation e f).resetHeld = s.resetHeld := rfl
@[simp] theorem State.updStation_latch (s : State) (e : Nat) (f : Station → Station) : (s.updStation e f).latch = s.latch := rfl
@[simp] theorem State.updStation_everPowered (s : State) (e : Nat) (f : Station → Station) : (s.updStation e f).everPowered = s.everPowered := rfl
@[simp] theorem State.updStation_clock (s : State) (e : Nat) (f : Station → Station) : (s.updStation e f).clock = s.clock := rfl
@[simp] theorem State.updStation_store (s : State) (e : Nat) (f : Station → Station) : (s.updStation e f).store = s.store := rfl
@[simp] theorem State.updStation_lastNumber (s : State) (e : Nat) (f : Station → Station) : (s.updStation e f).lastNumber = s.lastNumber := rfl
@[simp] theorem State.updStation_filingCount (s : State) (e : Nat) (f : Station → Station) : (s.updStation e f).filingCount = s.filingCount := rfl
@[simp] theorem State.updStation_dupTable (s : State) (e : Nat) (f : Station → Station) : (s.updStation e f).dupTable = s.dupTable := rfl
@[simp] theorem State.updStation_ring (s : State) (e : Nat) (f : Station → Station) : (s.updStation e f).ring = s.ring := rfl
@[simp] theorem State.updStation_book (s : State) (e : Nat) (f : Station → Station) : (s.updStation e f).book = s.book.modify e (Option.map f) := rfl
@[simp] theorem State.updStation_storeSet (s : State) (e : Nat) (f : Station → Station) : (s.updStation e f).storeSet = s.storeSet := rfl
@[simp] theorem State.updStation_ranking (s : State) (e : Nat) (f : Station → Station) : (s.updStation e f).ranking = s.ranking := rfl
@[simp] theorem State.updStation_dispatch (s : State) (e : Nat) (f : Station → Station) : (s.updStation e f).dispatch = s.dispatch := rfl
@[simp] theorem State.updStation_handOff (s : State) (e : Nat) (f : Station → Station) : (s.updStation e f).handOff = s.handOff := rfl
@[simp] theorem State.updStation_annFns (s : State) (e : Nat) (f : Station → Station) : (s.updStation e f).annFns = s.annFns := rfl
@[simp] theorem State.updStation_admin (s : State) (e : Nat) (f : Station → Station) : (s.updStation e f).admin = s.admin := rfl
@[simp] theorem State.updStation_counters (s : State) (e : Nat) (f : Station → Station) : (s.updStation e f).counters = s.counters := rfl
@[simp] theorem State.updStation_totals (s : State) (e : Nat) (f : Station → Station) : (s.updStation e f).totals = s.totals := rfl
@[simp] theorem State.updStation_roles (s : State) (e : Nat) (f : Station → Station) : (s.updStation e f).roles = s.roles := rfl
@[simp] theorem State.updStation_rate (s : State) (e : Nat) (f : Station → Station) : (s.updStation e f).rate = s.rate := rfl
@[simp] theorem State.updStation_units (s : State) (e : Nat) (f : Station → Station) : (s.updStation e f).units = s.units := rfl
@[simp] theorem State.updStation_lodges (s : State) (e : Nat) (f : Station → Station) : (s.updStation e f).lodges = s.lodges := rfl
@[simp] theorem State.updStation_lists (s : State) (e : Nat) (f : Station → Station) : (s.updStation e f).lists = s.lists := rfl
@[simp] theorem State.updStation_channels (s : State) (e : Nat) (f : Station → Station) : (s.updStation e f).channels = s.channels := rfl
@[simp] theorem State.updStation_firstPtr (s : State) (e : Nat) (f : Station → Station) : (s.updStation e f).firstPtr = s.firstPtr := rfl
@[simp] theorem State.updStation_tierBPtr (s : State) (e : Nat) (f : Station → Station) : (s.updStation e f).tierBPtr = s.tierBPtr := rfl
@[simp] theorem State.updStation_streak (s : State) (e : Nat) (f : Station → Station) : (s.updStation e f).streak = s.streak := rfl
@[simp] theorem State.updStation_status (s : State) (e : Nat) (f : Station → Station) : (s.updStation e f).status = s.status := rfl
@[simp] theorem State.updStation_enable (s : State) (e : Nat) (f : Station → Station) : (s.updStation e f).enable = s.enable := rfl
@[simp] theorem State.updStation_attention (s : State) (e : Nat) (f : Station → Station) : (s.updStation e f).attention = s.attention := rfl
@[simp] theorem State.updStation_annOut (s : State) (e : Nat) (f : Station → Station) : (s.updStation e f).annOut = s.annOut := rfl
@[simp] theorem State.updStation_prevLow (s : State) (e : Nat) (f : Station → Station) : (s.updStation e f).prevLow = s.prevLow := rfl
@[simp] theorem State.updStation_recovered (s : State) (e : Nat) (f : Station → Station) : (s.updStation e f).recovered = s.recovered := rfl
@[simp] theorem State.updStation_picks (s : State) (e : Nat) (f : Station → Station) : (s.updStation e f).picks = s.picks := rfl
@[simp] theorem State.updStation_pending (s : State) (e : Nat) (f : Station → Station) : (s.updStation e f).pending = s.pending := rfl

/-! ### updEntry -/

@[simp] theorem State.updEntry_power (s : State) (p : Port) (n i : Nat) (f : Entry → Entry) : (s.updEntry p n i f).power = s.power := rfl
@[simp] theorem State.updEntry_resetHeld (s : State) (p : Port) (n i : Nat) (f : Entry → Entry) : (s.updEntry p n i f).resetHeld = s.resetHeld := rfl
@[simp] theorem State.updEntry_latch (s : State) (p : Port) (n i : Nat) (f : Entry → Entry) : (s.updEntry p n i f).latch = s.latch := rfl
@[simp] theorem State.updEntry_everPowered (s : State) (p : Port) (n i : Nat) (f : Entry → Entry) : (s.updEntry p n i f).everPowered = s.everPowered := rfl
@[simp] theorem State.updEntry_clock (s : State) (p : Port) (n i : Nat) (f : Entry → Entry) : (s.updEntry p n i f).clock = s.clock := rfl
@[simp] theorem State.updEntry_store (s : State) (p : Port) (n i : Nat) (f : Entry → Entry) : (s.updEntry p n i f).store = s.store := rfl
@[simp] theorem State.updEntry_lastNumber (s : State) (p : Port) (n i : Nat) (f : Entry → Entry) : (s.updEntry p n i f).lastNumber = s.lastNumber := rfl
@[simp] theorem State.updEntry_filingCount (s : State) (p : Port) (n i : Nat) (f : Entry → Entry) : (s.updEntry p n i f).filingCount = s.filingCount := rfl
@[simp] theorem State.updEntry_dupTable (s : State) (p : Port) (n i : Nat) (f : Entry → Entry) : (s.updEntry p n i f).dupTable = s.dupTable := rfl
@[simp] theorem State.updEntry_ring (s : State) (p : Port) (n i : Nat) (f : Entry → Entry) : (s.updEntry p n i f).ring = s.ring := rfl
@[simp] theorem State.updEntry_book (s : State) (p : Port) (n i : Nat) (f : Entry → Entry) : (s.updEntry p n i f).book = s.book := rfl
@[simp] theorem State.updEntry_storeSet (s : State) (p : Port) (n i : Nat) (f : Entry → Entry) : (s.updEntry p n i f).storeSet = s.storeSet := rfl
@[simp] theorem State.updEntry_ranking (s : State) (p : Port) (n i : Nat) (f : Entry → Entry) : (s.updEntry p n i f).ranking = s.ranking := rfl
@[simp] theorem State.updEntry_dispatch (s : State) (p : Port) (n i : Nat) (f : Entry → Entry) : (s.updEntry p n i f).dispatch = s.dispatch := rfl
@[simp] theorem State.updEntry_handOff (s : State) (p : Port) (n i : Nat) (f : Entry → Entry) : (s.updEntry p n i f).handOff = s.handOff := rfl
@[simp] theorem State.updEntry_annFns (s : State) (p : Port) (n i : Nat) (f : Entry → Entry) : (s.updEntry p n i f).annFns = s.annFns := rfl
@[simp] theorem State.updEntry_admin (s : State) (p : Port) (n i : Nat) (f : Entry → Entry) : (s.updEntry p n i f).admin = s.admin := rfl
@[simp] theorem State.updEntry_counters (s : State) (p : Port) (n i : Nat) (f : Entry → Entry) : (s.updEntry p n i f).counters = s.counters := rfl
@[simp] theorem State.updEntry_totals (s : State) (p : Port) (n i : Nat) (f : Entry → Entry) : (s.updEntry p n i f).totals = s.totals := rfl
@[simp] theorem State.updEntry_roles (s : State) (p : Port) (n i : Nat) (f : Entry → Entry) : (s.updEntry p n i f).roles = s.roles := rfl
@[simp] theorem State.updEntry_rate (s : State) (p : Port) (n i : Nat) (f : Entry → Entry) : (s.updEntry p n i f).rate = s.rate := rfl
@[simp] theorem State.updEntry_units (s : State) (p : Port) (n i : Nat) (f : Entry → Entry) : (s.updEntry p n i f).units = s.units := rfl
@[simp] theorem State.updEntry_lodges (s : State) (p : Port) (n i : Nat) (f : Entry → Entry) : (s.updEntry p n i f).lodges = s.lodges := rfl
@[simp] theorem State.updEntry_lists (s : State) (p : Port) (n i : Nat) (f : Entry → Entry) : (s.updEntry p n i f).lists = s.lists.set p ((s.lists.get p).map fun e => if e.names n i then f e else e) := rfl
@[simp] theorem State.updEntry_channels (s : State) (p : Port) (n i : Nat) (f : Entry → Entry) : (s.updEntry p n i f).channels = s.channels := rfl
@[simp] theorem State.updEntry_firstPtr (s : State) (p : Port) (n i : Nat) (f : Entry → Entry) : (s.updEntry p n i f).firstPtr = s.firstPtr := rfl
@[simp] theorem State.updEntry_tierBPtr (s : State) (p : Port) (n i : Nat) (f : Entry → Entry) : (s.updEntry p n i f).tierBPtr = s.tierBPtr := rfl
@[simp] theorem State.updEntry_streak (s : State) (p : Port) (n i : Nat) (f : Entry → Entry) : (s.updEntry p n i f).streak = s.streak := rfl
@[simp] theorem State.updEntry_status (s : State) (p : Port) (n i : Nat) (f : Entry → Entry) : (s.updEntry p n i f).status = s.status := rfl
@[simp] theorem State.updEntry_enable (s : State) (p : Port) (n i : Nat) (f : Entry → Entry) : (s.updEntry p n i f).enable = s.enable := rfl
@[simp] theorem State.updEntry_attention (s : State) (p : Port) (n i : Nat) (f : Entry → Entry) : (s.updEntry p n i f).attention = s.attention := rfl
@[simp] theorem State.updEntry_annOut (s : State) (p : Port) (n i : Nat) (f : Entry → Entry) : (s.updEntry p n i f).annOut = s.annOut := rfl
@[simp] theorem State.updEntry_prevLow (s : State) (p : Port) (n i : Nat) (f : Entry → Entry) : (s.updEntry p n i f).prevLow = s.prevLow := rfl
@[simp] theorem State.updEntry_recovered (s : State) (p : Port) (n i : Nat) (f : Entry → Entry) : (s.updEntry p n i f).recovered = s.recovered := rfl
@[simp] theorem State.updEntry_picks (s : State) (p : Port) (n i : Nat) (f : Entry → Entry) : (s.updEntry p n i f).picks = s.picks := rfl
@[simp] theorem State.updEntry_pending (s : State) (p : Port) (n i : Nat) (f : Entry → Entry) : (s.updEntry p n i f).pending = s.pending := rfl

/-! ### addEntry -/

@[simp] theorem State.addEntry_power (s : State) (p : Port) (e : Entry) : (s.addEntry p e).power = s.power := rfl
@[simp] theorem State.addEntry_resetHeld (s : State) (p : Port) (e : Entry) : (s.addEntry p e).resetHeld = s.resetHeld := rfl
@[simp] theorem State.addEntry_latch (s : State) (p : Port) (e : Entry) : (s.addEntry p e).latch = s.latch := rfl
@[simp] theorem State.addEntry_everPowered (s : State) (p : Port) (e : Entry) : (s.addEntry p e).everPowered = s.everPowered := rfl
@[simp] theorem State.addEntry_clock (s : State) (p : Port) (e : Entry) : (s.addEntry p e).clock = s.clock := rfl
@[simp] theorem State.addEntry_store (s : State) (p : Port) (e : Entry) : (s.addEntry p e).store = s.store := rfl
@[simp] theorem State.addEntry_lastNumber (s : State) (p : Port) (e : Entry) : (s.addEntry p e).lastNumber = s.lastNumber := rfl
@[simp] theorem State.addEntry_filingCount (s : State) (p : Port) (e : Entry) : (s.addEntry p e).filingCount = s.filingCount := rfl
@[simp] theorem State.addEntry_dupTable (s : State) (p : Port) (e : Entry) : (s.addEntry p e).dupTable = s.dupTable := rfl
@[simp] theorem State.addEntry_ring (s : State) (p : Port) (e : Entry) : (s.addEntry p e).ring = s.ring := rfl
@[simp] theorem State.addEntry_book (s : State) (p : Port) (e : Entry) : (s.addEntry p e).book = s.book := rfl
@[simp] theorem State.addEntry_storeSet (s : State) (p : Port) (e : Entry) : (s.addEntry p e).storeSet = s.storeSet := rfl
@[simp] theorem State.addEntry_ranking (s : State) (p : Port) (e : Entry) : (s.addEntry p e).ranking = s.ranking := rfl
@[simp] theorem State.addEntry_dispatch (s : State) (p : Port) (e : Entry) : (s.addEntry p e).dispatch = s.dispatch := rfl
@[simp] theorem State.addEntry_handOff (s : State) (p : Port) (e : Entry) : (s.addEntry p e).handOff = s.handOff := rfl
@[simp] theorem State.addEntry_annFns (s : State) (p : Port) (e : Entry) : (s.addEntry p e).annFns = s.annFns := rfl
@[simp] theorem State.addEntry_admin (s : State) (p : Port) (e : Entry) : (s.addEntry p e).admin = s.admin := rfl
@[simp] theorem State.addEntry_counters (s : State) (p : Port) (e : Entry) : (s.addEntry p e).counters = s.counters := rfl
@[simp] theorem State.addEntry_totals (s : State) (p : Port) (e : Entry) : (s.addEntry p e).totals = s.totals := rfl
@[simp] theorem State.addEntry_roles (s : State) (p : Port) (e : Entry) : (s.addEntry p e).roles = s.roles := rfl
@[simp] theorem State.addEntry_rate (s : State) (p : Port) (e : Entry) : (s.addEntry p e).rate = s.rate := rfl
@[simp] theorem State.addEntry_units (s : State) (p : Port) (e : Entry) : (s.addEntry p e).units = s.units := rfl
@[simp] theorem State.addEntry_lodges (s : State) (p : Port) (e : Entry) : (s.addEntry p e).lodges = s.lodges := rfl
@[simp] theorem State.addEntry_lists (s : State) (p : Port) (e : Entry) : (s.addEntry p e).lists = s.lists.set p (s.lists.get p ++ [e]) := rfl
@[simp] theorem State.addEntry_channels (s : State) (p : Port) (e : Entry) : (s.addEntry p e).channels = s.channels := rfl
@[simp] theorem State.addEntry_firstPtr (s : State) (p : Port) (e : Entry) : (s.addEntry p e).firstPtr = s.firstPtr := rfl
@[simp] theorem State.addEntry_tierBPtr (s : State) (p : Port) (e : Entry) : (s.addEntry p e).tierBPtr = s.tierBPtr := rfl
@[simp] theorem State.addEntry_streak (s : State) (p : Port) (e : Entry) : (s.addEntry p e).streak = s.streak := rfl
@[simp] theorem State.addEntry_status (s : State) (p : Port) (e : Entry) : (s.addEntry p e).status = s.status := rfl
@[simp] theorem State.addEntry_enable (s : State) (p : Port) (e : Entry) : (s.addEntry p e).enable = s.enable := rfl
@[simp] theorem State.addEntry_attention (s : State) (p : Port) (e : Entry) : (s.addEntry p e).attention = s.attention := rfl
@[simp] theorem State.addEntry_annOut (s : State) (p : Port) (e : Entry) : (s.addEntry p e).annOut = s.annOut := rfl
@[simp] theorem State.addEntry_prevLow (s : State) (p : Port) (e : Entry) : (s.addEntry p e).prevLow = s.prevLow := rfl
@[simp] theorem State.addEntry_recovered (s : State) (p : Port) (e : Entry) : (s.addEntry p e).recovered = s.recovered := rfl
@[simp] theorem State.addEntry_picks (s : State) (p : Port) (e : Entry) : (s.addEntry p e).picks = s.picks := rfl
@[simp] theorem State.addEntry_pending (s : State) (p : Port) (e : Entry) : (s.addEntry p e).pending = s.pending := rfl

/-! ### dropEntry -/

@[simp] theorem State.dropEntry_power (s : State) (p : Port) (n i : Nat) : (s.dropEntry p n i).power = s.power := rfl
@[simp] theorem State.dropEntry_resetHeld (s : State) (p : Port) (n i : Nat) : (s.dropEntry p n i).resetHeld = s.resetHeld := rfl
@[simp] theorem State.dropEntry_latch (s : State) (p : Port) (n i : Nat) : (s.dropEntry p n i).latch = s.latch := rfl
@[simp] theorem State.dropEntry_everPowered (s : State) (p : Port) (n i : Nat) : (s.dropEntry p n i).everPowered = s.everPowered := rfl
@[simp] theorem State.dropEntry_clock (s : State) (p : Port) (n i : Nat) : (s.dropEntry p n i).clock = s.clock := rfl
@[simp] theorem State.dropEntry_store (s : State) (p : Port) (n i : Nat) : (s.dropEntry p n i).store = s.store := rfl
@[simp] theorem State.dropEntry_lastNumber (s : State) (p : Port) (n i : Nat) : (s.dropEntry p n i).lastNumber = s.lastNumber := rfl
@[simp] theorem State.dropEntry_filingCount (s : State) (p : Port) (n i : Nat) : (s.dropEntry p n i).filingCount = s.filingCount := rfl
@[simp] theorem State.dropEntry_dupTable (s : State) (p : Port) (n i : Nat) : (s.dropEntry p n i).dupTable = s.dupTable := rfl
@[simp] theorem State.dropEntry_ring (s : State) (p : Port) (n i : Nat) : (s.dropEntry p n i).ring = s.ring := rfl
@[simp] theorem State.dropEntry_book (s : State) (p : Port) (n i : Nat) : (s.dropEntry p n i).book = s.book := rfl
@[simp] theorem State.dropEntry_storeSet (s : State) (p : Port) (n i : Nat) : (s.dropEntry p n i).storeSet = s.storeSet := rfl
@[simp] theorem State.dropEntry_ranking (s : State) (p : Port) (n i : Nat) : (s.dropEntry p n i).ranking = s.ranking := rfl
@[simp] theorem State.dropEntry_dispatch (s : State) (p : Port) (n i : Nat) : (s.dropEntry p n i).dispatch = s.dispatch := rfl
@[simp] theorem State.dropEntry_handOff (s : State) (p : Port) (n i : Nat) : (s.dropEntry p n i).handOff = s.handOff := rfl
@[simp] theorem State.dropEntry_annFns (s : State) (p : Port) (n i : Nat) : (s.dropEntry p n i).annFns = s.annFns := rfl
@[simp] theorem State.dropEntry_admin (s : State) (p : Port) (n i : Nat) : (s.dropEntry p n i).admin = s.admin := rfl
@[simp] theorem State.dropEntry_counters (s : State) (p : Port) (n i : Nat) : (s.dropEntry p n i).counters = s.counters := rfl
@[simp] theorem State.dropEntry_totals (s : State) (p : Port) (n i : Nat) : (s.dropEntry p n i).totals = s.totals := rfl
@[simp] theorem State.dropEntry_roles (s : State) (p : Port) (n i : Nat) : (s.dropEntry p n i).roles = s.roles := rfl
@[simp] theorem State.dropEntry_rate (s : State) (p : Port) (n i : Nat) : (s.dropEntry p n i).rate = s.rate := rfl
@[simp] theorem State.dropEntry_units (s : State) (p : Port) (n i : Nat) : (s.dropEntry p n i).units = s.units := rfl
@[simp] theorem State.dropEntry_lodges (s : State) (p : Port) (n i : Nat) : (s.dropEntry p n i).lodges = s.lodges := rfl
@[simp] theorem State.dropEntry_lists (s : State) (p : Port) (n i : Nat) : (s.dropEntry p n i).lists = s.lists.set p ((s.lists.get p).filter fun e => !e.names n i) := rfl
@[simp] theorem State.dropEntry_channels (s : State) (p : Port) (n i : Nat) : (s.dropEntry p n i).channels = s.channels := rfl
@[simp] theorem State.dropEntry_firstPtr (s : State) (p : Port) (n i : Nat) : (s.dropEntry p n i).firstPtr = s.firstPtr := rfl
@[simp] theorem State.dropEntry_tierBPtr (s : State) (p : Port) (n i : Nat) : (s.dropEntry p n i).tierBPtr = s.tierBPtr := rfl
@[simp] theorem State.dropEntry_streak (s : State) (p : Port) (n i : Nat) : (s.dropEntry p n i).streak = s.streak := rfl
@[simp] theorem State.dropEntry_status (s : State) (p : Port) (n i : Nat) : (s.dropEntry p n i).status = s.status := rfl
@[simp] theorem State.dropEntry_enable (s : State) (p : Port) (n i : Nat) : (s.dropEntry p n i).enable = s.enable := rfl
@[simp] theorem State.dropEntry_attention (s : State) (p : Port) (n i : Nat) : (s.dropEntry p n i).attention = s.attention := rfl
@[simp] theorem State.dropEntry_annOut (s : State) (p : Port) (n i : Nat) : (s.dropEntry p n i).annOut = s.annOut := rfl
@[simp] theorem State.dropEntry_prevLow (s : State) (p : Port) (n i : Nat) : (s.dropEntry p n i).prevLow = s.prevLow := rfl
@[simp] theorem State.dropEntry_recovered (s : State) (p : Port) (n i : Nat) : (s.dropEntry p n i).recovered = s.recovered := rfl
@[simp] theorem State.dropEntry_picks (s : State) (p : Port) (n i : Nat) : (s.dropEntry p n i).picks = s.picks := rfl
@[simp] theorem State.dropEntry_pending (s : State) (p : Port) (n i : Nat) : (s.dropEntry p n i).pending = s.pending := rfl

/-! ### removeMsg -/

@[simp] theorem State.removeMsg_power (s : State) (n : Nat) : (s.removeMsg n).power = s.power := rfl
@[simp] theorem State.removeMsg_resetHeld (s : State) (n : Nat) : (s.removeMsg n).resetHeld = s.resetHeld := rfl
@[simp] theorem State.removeMsg_latch (s : State) (n : Nat) : (s.removeMsg n).latch = s.latch := rfl
@[simp] theorem State.removeMsg_everPowered (s : State) (n : Nat) : (s.removeMsg n).everPowered = s.everPowered := rfl
@[simp] theorem State.removeMsg_clock (s : State) (n : Nat) : (s.removeMsg n).clock = s.clock := rfl
@[simp] theorem State.removeMsg_store (s : State) (n : Nat) : (s.removeMsg n).store = s.store.filter fun m => m.number != n := rfl
@[simp] theorem State.removeMsg_lastNumber (s : State) (n : Nat) : (s.removeMsg n).lastNumber = s.lastNumber := rfl
@[simp] theorem State.removeMsg_filingCount (s : State) (n : Nat) : (s.removeMsg n).filingCount = s.filingCount := rfl
@[simp] theorem State.removeMsg_dupTable (s : State) (n : Nat) : (s.removeMsg n).dupTable = s.dupTable := rfl
@[simp] theorem State.removeMsg_ring (s : State) (n : Nat) : (s.removeMsg n).ring = s.ring := rfl
@[simp] theorem State.removeMsg_book (s : State) (n : Nat) : (s.removeMsg n).book = s.book := rfl
@[simp] theorem State.removeMsg_storeSet (s : State) (n : Nat) : (s.removeMsg n).storeSet = s.storeSet := rfl
@[simp] theorem State.removeMsg_ranking (s : State) (n : Nat) : (s.removeMsg n).ranking = s.ranking := rfl
@[simp] theorem State.removeMsg_dispatch (s : State) (n : Nat) : (s.removeMsg n).dispatch = s.dispatch := rfl
@[simp] theorem State.removeMsg_handOff (s : State) (n : Nat) : (s.removeMsg n).handOff = s.handOff := rfl
@[simp] theorem State.removeMsg_annFns (s : State) (n : Nat) : (s.removeMsg n).annFns = s.annFns := rfl
@[simp] theorem State.removeMsg_admin (s : State) (n : Nat) : (s.removeMsg n).admin = s.admin := rfl
@[simp] theorem State.removeMsg_counters (s : State) (n : Nat) : (s.removeMsg n).counters = s.counters := rfl
@[simp] theorem State.removeMsg_totals (s : State) (n : Nat) : (s.removeMsg n).totals = s.totals := rfl
@[simp] theorem State.removeMsg_roles (s : State) (n : Nat) : (s.removeMsg n).roles = s.roles := rfl
@[simp] theorem State.removeMsg_rate (s : State) (n : Nat) : (s.removeMsg n).rate = s.rate := rfl
@[simp] theorem State.removeMsg_units (s : State) (n : Nat) : (s.removeMsg n).units = s.units := rfl
@[simp] theorem State.removeMsg_lodges (s : State) (n : Nat) : (s.removeMsg n).lodges = s.lodges := rfl
@[simp] theorem State.removeMsg_lists (s : State) (n : Nat) : (s.removeMsg n).lists = s.lists := rfl
@[simp] theorem State.removeMsg_channels (s : State) (n : Nat) : (s.removeMsg n).channels = s.channels := rfl
@[simp] theorem State.removeMsg_firstPtr (s : State) (n : Nat) : (s.removeMsg n).firstPtr = s.firstPtr := rfl
@[simp] theorem State.removeMsg_tierBPtr (s : State) (n : Nat) : (s.removeMsg n).tierBPtr = s.tierBPtr := rfl
@[simp] theorem State.removeMsg_streak (s : State) (n : Nat) : (s.removeMsg n).streak = s.streak := rfl
@[simp] theorem State.removeMsg_status (s : State) (n : Nat) : (s.removeMsg n).status = s.status := rfl
@[simp] theorem State.removeMsg_enable (s : State) (n : Nat) : (s.removeMsg n).enable = s.enable := rfl
@[simp] theorem State.removeMsg_attention (s : State) (n : Nat) : (s.removeMsg n).attention = s.attention := rfl
@[simp] theorem State.removeMsg_annOut (s : State) (n : Nat) : (s.removeMsg n).annOut = s.annOut := rfl
@[simp] theorem State.removeMsg_prevLow (s : State) (n : Nat) : (s.removeMsg n).prevLow = s.prevLow := rfl
@[simp] theorem State.removeMsg_recovered (s : State) (n : Nat) : (s.removeMsg n).recovered = s.recovered := rfl
@[simp] theorem State.removeMsg_picks (s : State) (n : Nat) : (s.removeMsg n).picks = s.picks := rfl
@[simp] theorem State.removeMsg_pending (s : State) (n : Nat) : (s.removeMsg n).pending = s.pending := rfl

/-! ### releaseHolds -/

@[simp] theorem State.releaseHolds_power (s : State) (k : Port) : (s.releaseHolds k).power = s.power := rfl
@[simp] theorem State.releaseHolds_resetHeld (s : State) (k : Port) : (s.releaseHolds k).resetHeld = s.resetHeld := rfl
@[simp] theorem State.releaseHolds_latch (s : State) (k : Port) : (s.releaseHolds k).latch = s.latch := rfl
@[simp] theorem State.releaseHolds_everPowered (s : State) (k : Port) : (s.releaseHolds k).everPowered = s.everPowered := rfl
@[simp] theorem State.releaseHolds_clock (s : State) (k : Port) : (s.releaseHolds k).clock = s.clock := rfl
@[simp] theorem State.releaseHolds_lastNumber (s : State) (k : Port) : (s.releaseHolds k).lastNumber = s.lastNumber := rfl
@[simp] theorem State.releaseHolds_filingCount (s : State) (k : Port) : (s.releaseHolds k).filingCount = s.filingCount := rfl
@[simp] theorem State.releaseHolds_dupTable (s : State) (k : Port) : (s.releaseHolds k).dupTable = s.dupTable := rfl
@[simp] theorem State.releaseHolds_ring (s : State) (k : Port) : (s.releaseHolds k).ring = s.ring := rfl
@[simp] theorem State.releaseHolds_book (s : State) (k : Port) : (s.releaseHolds k).book = s.book := rfl
@[simp] theorem State.releaseHolds_storeSet (s : State) (k : Port) : (s.releaseHolds k).storeSet = s.storeSet := rfl
@[simp] theorem State.releaseHolds_ranking (s : State) (k : Port) : (s.releaseHolds k).ranking = s.ranking := rfl
@[simp] theorem State.releaseHolds_dispatch (s : State) (k : Port) : (s.releaseHolds k).dispatch = s.dispatch := rfl
@[simp] theorem State.releaseHolds_handOff (s : State) (k : Port) : (s.releaseHolds k).handOff = s.handOff := rfl
@[simp] theorem State.releaseHolds_annFns (s : State) (k : Port) : (s.releaseHolds k).annFns = s.annFns := rfl
@[simp] theorem State.releaseHolds_admin (s : State) (k : Port) : (s.releaseHolds k).admin = s.admin := rfl
@[simp] theorem State.releaseHolds_counters (s : State) (k : Port) : (s.releaseHolds k).counters = s.counters := rfl
@[simp] theorem State.releaseHolds_totals (s : State) (k : Port) : (s.releaseHolds k).totals = s.totals := rfl
@[simp] theorem State.releaseHolds_roles (s : State) (k : Port) : (s.releaseHolds k).roles = s.roles := rfl
@[simp] theorem State.releaseHolds_rate (s : State) (k : Port) : (s.releaseHolds k).rate = s.rate := rfl
@[simp] theorem State.releaseHolds_units (s : State) (k : Port) : (s.releaseHolds k).units = s.units := rfl
@[simp] theorem State.releaseHolds_lodges (s : State) (k : Port) : (s.releaseHolds k).lodges = s.lodges := rfl
@[simp] theorem State.releaseHolds_lists (s : State) (k : Port) : (s.releaseHolds k).lists = s.lists := rfl
@[simp] theorem State.releaseHolds_channels (s : State) (k : Port) : (s.releaseHolds k).channels = s.channels := rfl
@[simp] theorem State.releaseHolds_firstPtr (s : State) (k : Port) : (s.releaseHolds k).firstPtr = s.firstPtr := rfl
@[simp] theorem State.releaseHolds_tierBPtr (s : State) (k : Port) : (s.releaseHolds k).tierBPtr = s.tierBPtr := rfl
@[simp] theorem State.releaseHolds_streak (s : State) (k : Port) : (s.releaseHolds k).streak = s.streak := rfl
@[simp] theorem State.releaseHolds_status (s : State) (k : Port) : (s.releaseHolds k).status = s.status := rfl
@[simp] theorem State.releaseHolds_enable (s : State) (k : Port) : (s.releaseHolds k).enable = s.enable := rfl
@[simp] theorem State.releaseHolds_attention (s : State) (k : Port) : (s.releaseHolds k).attention = s.attention := rfl
@[simp] theorem State.releaseHolds_annOut (s : State) (k : Port) : (s.releaseHolds k).annOut = s.annOut := rfl
@[simp] theorem State.releaseHolds_prevLow (s : State) (k : Port) : (s.releaseHolds k).prevLow = s.prevLow := rfl
@[simp] theorem State.releaseHolds_recovered (s : State) (k : Port) : (s.releaseHolds k).recovered = s.recovered := rfl
@[simp] theorem State.releaseHolds_picks (s : State) (k : Port) : (s.releaseHolds k).picks = s.picks := rfl
@[simp] theorem State.releaseHolds_pending (s : State) (k : Port) : (s.releaseHolds k).pending = s.pending := rfl

/-! ### endStreak -/

@[simp] theorem State.endStreak_power (s : State) (e : Nat) : (s.endStreak e).power = s.power := rfl
@[simp] theorem State.endStreak_resetHeld (s : State) (e : Nat) : (s.endStreak e).resetHeld = s.resetHeld := rfl
@[simp] theorem State.endStreak_latch (s : State) (e : Nat) : (s.endStreak e).latch = s.latch := rfl
@[simp] theorem State.endStreak_everPowered (s : State) (e : Nat) : (s.endStreak e).everPowered = s.everPowered := rfl
@[simp] theorem State.endStreak_clock (s : State) (e : Nat) : (s.endStreak e).clock = s.clock := rfl
@[simp] theorem State.endStreak_store (s : State) (e : Nat) : (s.endStreak e).store = s.store := rfl
@[simp] theorem State.endStreak_lastNumber (s : State) (e : Nat) : (s.endStreak e).lastNumber = s.lastNumber := rfl
@[simp] theorem State.endStreak_filingCount (s : State) (e : Nat) : (s.endStreak e).filingCount = s.filingCount := rfl
@[simp] theorem State.endStreak_dupTable (s : State) (e : Nat) : (s.endStreak e).dupTable = s.dupTable := rfl
@[simp] theorem State.endStreak_ring (s : State) (e : Nat) : (s.endStreak e).ring = s.ring := rfl
@[simp] theorem State.endStreak_book (s : State) (e : Nat) : (s.endStreak e).book = s.book := rfl
@[simp] theorem State.endStreak_storeSet (s : State) (e : Nat) : (s.endStreak e).storeSet = s.storeSet := rfl
@[simp] theorem State.endStreak_ranking (s : State) (e : Nat) : (s.endStreak e).ranking = s.ranking := rfl
@[simp] theorem State.endStreak_dispatch (s : State) (e : Nat) : (s.endStreak e).dispatch = s.dispatch := rfl
@[simp] theorem State.endStreak_handOff (s : State) (e : Nat) : (s.endStreak e).handOff = s.handOff := rfl
@[simp] theorem State.endStreak_annFns (s : State) (e : Nat) : (s.endStreak e).annFns = s.annFns := rfl
@[simp] theorem State.endStreak_admin (s : State) (e : Nat) : (s.endStreak e).admin = s.admin := rfl
@[simp] theorem State.endStreak_counters (s : State) (e : Nat) : (s.endStreak e).counters = s.counters := rfl
@[simp] theorem State.endStreak_totals (s : State) (e : Nat) : (s.endStreak e).totals = s.totals := rfl
@[simp] theorem State.endStreak_roles (s : State) (e : Nat) : (s.endStreak e).roles = s.roles := rfl
@[simp] theorem State.endStreak_rate (s : State) (e : Nat) : (s.endStreak e).rate = s.rate := rfl
@[simp] theorem State.endStreak_units (s : State) (e : Nat) : (s.endStreak e).units = s.units := rfl
@[simp] theorem State.endStreak_lodges (s : State) (e : Nat) : (s.endStreak e).lodges = s.lodges := rfl
@[simp] theorem State.endStreak_lists (s : State) (e : Nat) : (s.endStreak e).lists = s.lists := rfl
@[simp] theorem State.endStreak_channels (s : State) (e : Nat) : (s.endStreak e).channels = s.channels := rfl
@[simp] theorem State.endStreak_firstPtr (s : State) (e : Nat) : (s.endStreak e).firstPtr = s.firstPtr := rfl
@[simp] theorem State.endStreak_tierBPtr (s : State) (e : Nat) : (s.endStreak e).tierBPtr = s.tierBPtr := rfl
@[simp] theorem State.endStreak_status (s : State) (e : Nat) : (s.endStreak e).status = s.status := rfl
@[simp] theorem State.endStreak_enable (s : State) (e : Nat) : (s.endStreak e).enable = s.enable := rfl
@[simp] theorem State.endStreak_attention (s : State) (e : Nat) : (s.endStreak e).attention = s.attention := rfl
@[simp] theorem State.endStreak_annOut (s : State) (e : Nat) : (s.endStreak e).annOut = s.annOut := rfl
@[simp] theorem State.endStreak_prevLow (s : State) (e : Nat) : (s.endStreak e).prevLow = s.prevLow := rfl
@[simp] theorem State.endStreak_recovered (s : State) (e : Nat) : (s.endStreak e).recovered = s.recovered := rfl
@[simp] theorem State.endStreak_picks (s : State) (e : Nat) : (s.endStreak e).picks = s.picks := rfl
@[simp] theorem State.endStreak_pending (s : State) (e : Nat) : (s.endStreak e).pending = s.pending := rfl

/-! ### raiseWhere -/

@[simp] theorem State.raiseWhere_power (s : State) (k : EventKind) (who : Port → Bool) : (s.raiseWhere k who).power = s.power := rfl
@[simp] theorem State.raiseWhere_resetHeld (s : State) (k : EventKind) (who : Port → Bool) : (s.raiseWhere k who).resetHeld = s.resetHeld := rfl
@[simp] theorem State.raiseWhere_latch (s : State) (k : EventKind) (who : Port → Bool) : (s.raiseWhere k who).latch = s.latch := rfl
@[simp] theorem State.raiseWhere_everPowered (s : State) (k : EventKind) (who : Port → Bool) : (s.raiseWhere k who).everPowered = s.everPowered := rfl
@[simp] theorem State.raiseWhere_clock (s : State) (k : EventKind) (who : Port → Bool) : (s.raiseWhere k who).clock = s.clock := rfl
@[simp] theorem State.raiseWhere_store (s : State) (k : EventKind) (who : Port → Bool) : (s.raiseWhere k who).store = s.store := rfl
@[simp] theorem State.raiseWhere_lastNumber (s : State) (k : EventKind) (who : Port → Bool) : (s.raiseWhere k who).lastNumber = s.lastNumber := rfl
@[simp] theorem State.raiseWhere_filingCount (s : State) (k : EventKind) (who : Port → Bool) : (s.raiseWhere k who).filingCount = s.filingCount := rfl
@[simp] theorem State.raiseWhere_dupTable (s : State) (k : EventKind) (who : Port → Bool) : (s.raiseWhere k who).dupTable = s.dupTable := rfl
@[simp] theorem State.raiseWhere_ring (s : State) (k : EventKind) (who : Port → Bool) : (s.raiseWhere k who).ring = s.ring := rfl
@[simp] theorem State.raiseWhere_book (s : State) (k : EventKind) (who : Port → Bool) : (s.raiseWhere k who).book = s.book := rfl
@[simp] theorem State.raiseWhere_storeSet (s : State) (k : EventKind) (who : Port → Bool) : (s.raiseWhere k who).storeSet = s.storeSet := rfl
@[simp] theorem State.raiseWhere_ranking (s : State) (k : EventKind) (who : Port → Bool) : (s.raiseWhere k who).ranking = s.ranking := rfl
@[simp] theorem State.raiseWhere_dispatch (s : State) (k : EventKind) (who : Port → Bool) : (s.raiseWhere k who).dispatch = s.dispatch := rfl
@[simp] theorem State.raiseWhere_handOff (s : State) (k : EventKind) (who : Port → Bool) : (s.raiseWhere k who).handOff = s.handOff := rfl
@[simp] theorem State.raiseWhere_annFns (s : State) (k : EventKind) (who : Port → Bool) : (s.raiseWhere k who).annFns = s.annFns := rfl
@[simp] theorem State.raiseWhere_admin (s : State) (k : EventKind) (who : Port → Bool) : (s.raiseWhere k who).admin = s.admin := rfl
@[simp] theorem State.raiseWhere_counters (s : State) (k : EventKind) (who : Port → Bool) : (s.raiseWhere k who).counters = s.counters := rfl
@[simp] theorem State.raiseWhere_totals (s : State) (k : EventKind) (who : Port → Bool) : (s.raiseWhere k who).totals = s.totals := rfl
@[simp] theorem State.raiseWhere_roles (s : State) (k : EventKind) (who : Port → Bool) : (s.raiseWhere k who).roles = s.roles := rfl
@[simp] theorem State.raiseWhere_rate (s : State) (k : EventKind) (who : Port → Bool) : (s.raiseWhere k who).rate = s.rate := rfl
@[simp] theorem State.raiseWhere_units (s : State) (k : EventKind) (who : Port → Bool) : (s.raiseWhere k who).units = s.units := rfl
@[simp] theorem State.raiseWhere_lodges (s : State) (k : EventKind) (who : Port → Bool) : (s.raiseWhere k who).lodges = s.lodges := rfl
@[simp] theorem State.raiseWhere_lists (s : State) (k : EventKind) (who : Port → Bool) : (s.raiseWhere k who).lists = s.lists := rfl
@[simp] theorem State.raiseWhere_channels (s : State) (k : EventKind) (who : Port → Bool) : (s.raiseWhere k who).channels = s.channels := rfl
@[simp] theorem State.raiseWhere_firstPtr (s : State) (k : EventKind) (who : Port → Bool) : (s.raiseWhere k who).firstPtr = s.firstPtr := rfl
@[simp] theorem State.raiseWhere_tierBPtr (s : State) (k : EventKind) (who : Port → Bool) : (s.raiseWhere k who).tierBPtr = s.tierBPtr := rfl
@[simp] theorem State.raiseWhere_streak (s : State) (k : EventKind) (who : Port → Bool) : (s.raiseWhere k who).streak = s.streak := rfl
@[simp] theorem State.raiseWhere_enable (s : State) (k : EventKind) (who : Port → Bool) : (s.raiseWhere k who).enable = s.enable := rfl
@[simp] theorem State.raiseWhere_attention (s : State) (k : EventKind) (who : Port → Bool) : (s.raiseWhere k who).attention = s.attention := rfl
@[simp] theorem State.raiseWhere_annOut (s : State) (k : EventKind) (who : Port → Bool) : (s.raiseWhere k who).annOut = s.annOut := rfl
@[simp] theorem State.raiseWhere_prevLow (s : State) (k : EventKind) (who : Port → Bool) : (s.raiseWhere k who).prevLow = s.prevLow := rfl
@[simp] theorem State.raiseWhere_recovered (s : State) (k : EventKind) (who : Port → Bool) : (s.raiseWhere k who).recovered = s.recovered := rfl
@[simp] theorem State.raiseWhere_picks (s : State) (k : EventKind) (who : Port → Bool) : (s.raiseWhere k who).picks = s.picks := rfl
@[simp] theorem State.raiseWhere_pending (s : State) (k : EventKind) (who : Port → Bool) : (s.raiseWhere k who).pending = s.pending := rfl

/-! ### raiseAt -/

@[simp] theorem State.raiseAt_power (s : State) (k : EventKind) (p : Port) : (s.raiseAt k p).power = s.power := rfl
@[simp] theorem State.raiseAt_resetHeld (s : State) (k : EventKind) (p : Port) : (s.raiseAt k p).resetHeld = s.resetHeld := rfl
@[simp] theorem State.raiseAt_latch (s : State) (k : EventKind) (p : Port) : (s.raiseAt k p).latch = s.latch := rfl
@[simp] theorem State.raiseAt_everPowered (s : State) (k : EventKind) (p : Port) : (s.raiseAt k p).everPowered = s.everPowered := rfl
@[simp] theorem State.raiseAt_clock (s : State) (k : EventKind) (p : Port) : (s.raiseAt k p).clock = s.clock := rfl
@[simp] theorem State.raiseAt_store (s : State) (k : EventKind) (p : Port) : (s.raiseAt k p).store = s.store := rfl
@[simp] theorem State.raiseAt_lastNumber (s : State) (k : EventKind) (p : Port) : (s.raiseAt k p).lastNumber = s.lastNumber := rfl
@[simp] theorem State.raiseAt_filingCount (s : State) (k : EventKind) (p : Port) : (s.raiseAt k p).filingCount = s.filingCount := rfl
@[simp] theorem State.raiseAt_dupTable (s : State) (k : EventKind) (p : Port) : (s.raiseAt k p).dupTable = s.dupTable := rfl
@[simp] theorem State.raiseAt_ring (s : State) (k : EventKind) (p : Port) : (s.raiseAt k p).ring = s.ring := rfl
@[simp] theorem State.raiseAt_book (s : State) (k : EventKind) (p : Port) : (s.raiseAt k p).book = s.book := rfl
@[simp] theorem State.raiseAt_storeSet (s : State) (k : EventKind) (p : Port) : (s.raiseAt k p).storeSet = s.storeSet := rfl
@[simp] theorem State.raiseAt_ranking (s : State) (k : EventKind) (p : Port) : (s.raiseAt k p).ranking = s.ranking := rfl
@[simp] theorem State.raiseAt_dispatch (s : State) (k : EventKind) (p : Port) : (s.raiseAt k p).dispatch = s.dispatch := rfl
@[simp] theorem State.raiseAt_handOff (s : State) (k : EventKind) (p : Port) : (s.raiseAt k p).handOff = s.handOff := rfl
@[simp] theorem State.raiseAt_annFns (s : State) (k : EventKind) (p : Port) : (s.raiseAt k p).annFns = s.annFns := rfl
@[simp] theorem State.raiseAt_admin (s : State) (k : EventKind) (p : Port) : (s.raiseAt k p).admin = s.admin := rfl
@[simp] theorem State.raiseAt_counters (s : State) (k : EventKind) (p : Port) : (s.raiseAt k p).counters = s.counters := rfl
@[simp] theorem State.raiseAt_totals (s : State) (k : EventKind) (p : Port) : (s.raiseAt k p).totals = s.totals := rfl
@[simp] theorem State.raiseAt_roles (s : State) (k : EventKind) (p : Port) : (s.raiseAt k p).roles = s.roles := rfl
@[simp] theorem State.raiseAt_rate (s : State) (k : EventKind) (p : Port) : (s.raiseAt k p).rate = s.rate := rfl
@[simp] theorem State.raiseAt_units (s : State) (k : EventKind) (p : Port) : (s.raiseAt k p).units = s.units := rfl
@[simp] theorem State.raiseAt_lodges (s : State) (k : EventKind) (p : Port) : (s.raiseAt k p).lodges = s.lodges := rfl
@[simp] theorem State.raiseAt_lists (s : State) (k : EventKind) (p : Port) : (s.raiseAt k p).lists = s.lists := rfl
@[simp] theorem State.raiseAt_channels (s : State) (k : EventKind) (p : Port) : (s.raiseAt k p).channels = s.channels := rfl
@[simp] theorem State.raiseAt_firstPtr (s : State) (k : EventKind) (p : Port) : (s.raiseAt k p).firstPtr = s.firstPtr := rfl
@[simp] theorem State.raiseAt_tierBPtr (s : State) (k : EventKind) (p : Port) : (s.raiseAt k p).tierBPtr = s.tierBPtr := rfl
@[simp] theorem State.raiseAt_streak (s : State) (k : EventKind) (p : Port) : (s.raiseAt k p).streak = s.streak := rfl
@[simp] theorem State.raiseAt_enable (s : State) (k : EventKind) (p : Port) : (s.raiseAt k p).enable = s.enable := rfl
@[simp] theorem State.raiseAt_attention (s : State) (k : EventKind) (p : Port) : (s.raiseAt k p).attention = s.attention := rfl
@[simp] theorem State.raiseAt_annOut (s : State) (k : EventKind) (p : Port) : (s.raiseAt k p).annOut = s.annOut := rfl
@[simp] theorem State.raiseAt_prevLow (s : State) (k : EventKind) (p : Port) : (s.raiseAt k p).prevLow = s.prevLow := rfl
@[simp] theorem State.raiseAt_recovered (s : State) (k : EventKind) (p : Port) : (s.raiseAt k p).recovered = s.recovered := rfl
@[simp] theorem State.raiseAt_picks (s : State) (k : EventKind) (p : Port) : (s.raiseAt k p).picks = s.picks := rfl
@[simp] theorem State.raiseAt_pending (s : State) (k : EventKind) (p : Port) : (s.raiseAt k p).pending = s.pending := rfl

/-! ### raiseConsoles -/

@[simp] theorem State.raiseConsoles_power (s : State) (k : EventKind) : (s.raiseConsoles k).power = s.power := rfl
@[simp] theorem State.raiseConsoles_resetHeld (s : State) (k : EventKind) : (s.raiseConsoles k).resetHeld = s.resetHeld := rfl
@[simp] theorem State.raiseConsoles_latch (s : State) (k : EventKind) : (s.raiseConsoles k).latch = s.latch := rfl
@[simp] theorem State.raiseConsoles_everPowered (s : State) (k : EventKind) : (s.raiseConsoles k).everPowered = s.everPowered := rfl
@[simp] theorem State.raiseConsoles_clock (s : State) (k : EventKind) : (s.raiseConsoles k).clock = s.clock := rfl
@[simp] theorem State.raiseConsoles_store (s : State) (k : EventKind) : (s.raiseConsoles k).store = s.store := rfl
@[simp] theorem State.raiseConsoles_lastNumber (s : State) (k : EventKind) : (s.raiseConsoles k).lastNumber = s.lastNumber := rfl
@[simp] theorem State.raiseConsoles_filingCount (s : State) (k : EventKind) : (s.raiseConsoles k).filingCount = s.filingCount := rfl
@[simp] theorem State.raiseConsoles_dupTable (s : State) (k : EventKind) : (s.raiseConsoles k).dupTable = s.dupTable := rfl
@[simp] theorem State.raiseConsoles_ring (s : State) (k : EventKind) : (s.raiseConsoles k).ring = s.ring := rfl
@[simp] theorem State.raiseConsoles_book (s : State) (k : EventKind) : (s.raiseConsoles k).book = s.book := rfl
@[simp] theorem State.raiseConsoles_storeSet (s : State) (k : EventKind) : (s.raiseConsoles k).storeSet = s.storeSet := rfl
@[simp] theorem State.raiseConsoles_ranking (s : State) (k : EventKind) : (s.raiseConsoles k).ranking = s.ranking := rfl
@[simp] theorem State.raiseConsoles_dispatch (s : State) (k : EventKind) : (s.raiseConsoles k).dispatch = s.dispatch := rfl
@[simp] theorem State.raiseConsoles_handOff (s : State) (k : EventKind) : (s.raiseConsoles k).handOff = s.handOff := rfl
@[simp] theorem State.raiseConsoles_annFns (s : State) (k : EventKind) : (s.raiseConsoles k).annFns = s.annFns := rfl
@[simp] theorem State.raiseConsoles_admin (s : State) (k : EventKind) : (s.raiseConsoles k).admin = s.admin := rfl
@[simp] theorem State.raiseConsoles_counters (s : State) (k : EventKind) : (s.raiseConsoles k).counters = s.counters := rfl
@[simp] theorem State.raiseConsoles_totals (s : State) (k : EventKind) : (s.raiseConsoles k).totals = s.totals := rfl
@[simp] theorem State.raiseConsoles_roles (s : State) (k : EventKind) : (s.raiseConsoles k).roles = s.roles := rfl
@[simp] theorem State.raiseConsoles_rate (s : State) (k : EventKind) : (s.raiseConsoles k).rate = s.rate := rfl
@[simp] theorem State.raiseConsoles_units (s : State) (k : EventKind) : (s.raiseConsoles k).units = s.units := rfl
@[simp] theorem State.raiseConsoles_lodges (s : State) (k : EventKind) : (s.raiseConsoles k).lodges = s.lodges := rfl
@[simp] theorem State.raiseConsoles_lists (s : State) (k : EventKind) : (s.raiseConsoles k).lists = s.lists := rfl
@[simp] theorem State.raiseConsoles_channels (s : State) (k : EventKind) : (s.raiseConsoles k).channels = s.channels := rfl
@[simp] theorem State.raiseConsoles_firstPtr (s : State) (k : EventKind) : (s.raiseConsoles k).firstPtr = s.firstPtr := rfl
@[simp] theorem State.raiseConsoles_tierBPtr (s : State) (k : EventKind) : (s.raiseConsoles k).tierBPtr = s.tierBPtr := rfl
@[simp] theorem State.raiseConsoles_streak (s : State) (k : EventKind) : (s.raiseConsoles k).streak = s.streak := rfl
@[simp] theorem State.raiseConsoles_enable (s : State) (k : EventKind) : (s.raiseConsoles k).enable = s.enable := rfl
@[simp] theorem State.raiseConsoles_attention (s : State) (k : EventKind) : (s.raiseConsoles k).attention = s.attention := rfl
@[simp] theorem State.raiseConsoles_annOut (s : State) (k : EventKind) : (s.raiseConsoles k).annOut = s.annOut := rfl
@[simp] theorem State.raiseConsoles_prevLow (s : State) (k : EventKind) : (s.raiseConsoles k).prevLow = s.prevLow := rfl
@[simp] theorem State.raiseConsoles_recovered (s : State) (k : EventKind) : (s.raiseConsoles k).recovered = s.recovered := rfl
@[simp] theorem State.raiseConsoles_picks (s : State) (k : EventKind) : (s.raiseConsoles k).picks = s.picks := rfl
@[simp] theorem State.raiseConsoles_pending (s : State) (k : EventKind) : (s.raiseConsoles k).pending = s.pending := rfl

/-! ### raiseAll -/

@[simp] theorem State.raiseAll_power (s : State) (k : EventKind) : (s.raiseAll k).power = s.power := rfl
@[simp] theorem State.raiseAll_resetHeld (s : State) (k : EventKind) : (s.raiseAll k).resetHeld = s.resetHeld := rfl
@[simp] theorem State.raiseAll_latch (s : State) (k : EventKind) : (s.raiseAll k).latch = s.latch := rfl
@[simp] theorem State.raiseAll_everPowered (s : State) (k : EventKind) : (s.raiseAll k).everPowered = s.everPowered := rfl
@[simp] theorem State.raiseAll_clock (s : State) (k : EventKind) : (s.raiseAll k).clock = s.clock := rfl
@[simp] theorem State.raiseAll_store (s : State) (k : EventKind) : (s.raiseAll k).store = s.store := rfl
@[simp] theorem State.raiseAll_lastNumber (s : State) (k : EventKind) : (s.raiseAll k).lastNumber = s.lastNumber := rfl
@[simp] theorem State.raiseAll_filingCount (s : State) (k : EventKind) : (s.raiseAll k).filingCount = s.filingCount := rfl
@[simp] theorem State.raiseAll_dupTable (s : State) (k : EventKind) : (s.raiseAll k).dupTable = s.dupTable := rfl
@[simp] theorem State.raiseAll_ring (s : State) (k : EventKind) : (s.raiseAll k).ring = s.ring := rfl
@[simp] theorem State.raiseAll_book (s : State) (k : EventKind) : (s.raiseAll k).book = s.book := rfl
@[simp] theorem State.raiseAll_storeSet (s : State) (k : EventKind) : (s.raiseAll k).storeSet = s.storeSet := rfl
@[simp] theorem State.raiseAll_ranking (s : State) (k : EventKind) : (s.raiseAll k).ranking = s.ranking := rfl
@[simp] theorem State.raiseAll_dispatch (s : State) (k : EventKind) : (s.raiseAll k).dispatch = s.dispatch := rfl
@[simp] theorem State.raiseAll_handOff (s : State) (k : EventKind) : (s.raiseAll k).handOff = s.handOff := rfl
@[simp] theorem State.raiseAll_annFns (s : State) (k : EventKind) : (s.raiseAll k).annFns = s.annFns := rfl
@[simp] theorem State.raiseAll_admin (s : State) (k : EventKind) : (s.raiseAll k).admin = s.admin := rfl
@[simp] theorem State.raiseAll_counters (s : State) (k : EventKind) : (s.raiseAll k).counters = s.counters := rfl
@[simp] theorem State.raiseAll_totals (s : State) (k : EventKind) : (s.raiseAll k).totals = s.totals := rfl
@[simp] theorem State.raiseAll_roles (s : State) (k : EventKind) : (s.raiseAll k).roles = s.roles := rfl
@[simp] theorem State.raiseAll_rate (s : State) (k : EventKind) : (s.raiseAll k).rate = s.rate := rfl
@[simp] theorem State.raiseAll_units (s : State) (k : EventKind) : (s.raiseAll k).units = s.units := rfl
@[simp] theorem State.raiseAll_lodges (s : State) (k : EventKind) : (s.raiseAll k).lodges = s.lodges := rfl
@[simp] theorem State.raiseAll_lists (s : State) (k : EventKind) : (s.raiseAll k).lists = s.lists := rfl
@[simp] theorem State.raiseAll_channels (s : State) (k : EventKind) : (s.raiseAll k).channels = s.channels := rfl
@[simp] theorem State.raiseAll_firstPtr (s : State) (k : EventKind) : (s.raiseAll k).firstPtr = s.firstPtr := rfl
@[simp] theorem State.raiseAll_tierBPtr (s : State) (k : EventKind) : (s.raiseAll k).tierBPtr = s.tierBPtr := rfl
@[simp] theorem State.raiseAll_streak (s : State) (k : EventKind) : (s.raiseAll k).streak = s.streak := rfl
@[simp] theorem State.raiseAll_enable (s : State) (k : EventKind) : (s.raiseAll k).enable = s.enable := rfl
@[simp] theorem State.raiseAll_attention (s : State) (k : EventKind) : (s.raiseAll k).attention = s.attention := rfl
@[simp] theorem State.raiseAll_annOut (s : State) (k : EventKind) : (s.raiseAll k).annOut = s.annOut := rfl
@[simp] theorem State.raiseAll_prevLow (s : State) (k : EventKind) : (s.raiseAll k).prevLow = s.prevLow := rfl
@[simp] theorem State.raiseAll_recovered (s : State) (k : EventKind) : (s.raiseAll k).recovered = s.recovered := rfl
@[simp] theorem State.raiseAll_picks (s : State) (k : EventKind) : (s.raiseAll k).picks = s.picks := rfl
@[simp] theorem State.raiseAll_pending (s : State) (k : EventKind) : (s.raiseAll k).pending = s.pending := rfl

/-! ### raiseConsolesIf -/

@[simp] theorem State.raiseConsolesIf_power (s : State) (c : Bool) (k : EventKind) : (s.raiseConsolesIf c k).power = s.power := by cases c <;> rfl
@[simp] theorem State.raiseConsolesIf_resetHeld (s : State) (c : Bool) (k : EventKind) : (s.raiseConsolesIf c k).resetHeld = s.resetHeld := by cases c <;> rfl
@[simp] theorem State.raiseConsolesIf_latch (s : State) (c : Bool) (k : EventKind) : (s.raiseConsolesIf c k).latch = s.latch := by cases c <;> rfl
@[simp] theorem State.raiseConsolesIf_everPowered (s : State) (c : Bool) (k : EventKind) : (s.raiseConsolesIf c k).everPowered = s.everPowered := by cases c <;> rfl
@[simp] theorem State.raiseConsolesIf_clock (s : State) (c : Bool) (k : EventKind) : (s.raiseConsolesIf c k).clock = s.clock := by cases c <;> rfl
@[simp] theorem State.raiseConsolesIf_store (s : State) (c : Bool) (k : EventKind) : (s.raiseConsolesIf c k).store = s.store := by cases c <;> rfl
@[simp] theorem State.raiseConsolesIf_lastNumber (s : State) (c : Bool) (k : EventKind) : (s.raiseConsolesIf c k).lastNumber = s.lastNumber := by cases c <;> rfl
@[simp] theorem State.raiseConsolesIf_filingCount (s : State) (c : Bool) (k : EventKind) : (s.raiseConsolesIf c k).filingCount = s.filingCount := by cases c <;> rfl
@[simp] theorem State.raiseConsolesIf_dupTable (s : State) (c : Bool) (k : EventKind) : (s.raiseConsolesIf c k).dupTable = s.dupTable := by cases c <;> rfl
@[simp] theorem State.raiseConsolesIf_ring (s : State) (c : Bool) (k : EventKind) : (s.raiseConsolesIf c k).ring = s.ring := by cases c <;> rfl
@[simp] theorem State.raiseConsolesIf_book (s : State) (c : Bool) (k : EventKind) : (s.raiseConsolesIf c k).book = s.book := by cases c <;> rfl
@[simp] theorem State.raiseConsolesIf_storeSet (s : State) (c : Bool) (k : EventKind) : (s.raiseConsolesIf c k).storeSet = s.storeSet := by cases c <;> rfl
@[simp] theorem State.raiseConsolesIf_ranking (s : State) (c : Bool) (k : EventKind) : (s.raiseConsolesIf c k).ranking = s.ranking := by cases c <;> rfl
@[simp] theorem State.raiseConsolesIf_dispatch (s : State) (c : Bool) (k : EventKind) : (s.raiseConsolesIf c k).dispatch = s.dispatch := by cases c <;> rfl
@[simp] theorem State.raiseConsolesIf_handOff (s : State) (c : Bool) (k : EventKind) : (s.raiseConsolesIf c k).handOff = s.handOff := by cases c <;> rfl
@[simp] theorem State.raiseConsolesIf_annFns (s : State) (c : Bool) (k : EventKind) : (s.raiseConsolesIf c k).annFns = s.annFns := by cases c <;> rfl
@[simp] theorem State.raiseConsolesIf_admin (s : State) (c : Bool) (k : EventKind) : (s.raiseConsolesIf c k).admin = s.admin := by cases c <;> rfl
@[simp] theorem State.raiseConsolesIf_counters (s : State) (c : Bool) (k : EventKind) : (s.raiseConsolesIf c k).counters = s.counters := by cases c <;> rfl
@[simp] theorem State.raiseConsolesIf_totals (s : State) (c : Bool) (k : EventKind) : (s.raiseConsolesIf c k).totals = s.totals := by cases c <;> rfl
@[simp] theorem State.raiseConsolesIf_roles (s : State) (c : Bool) (k : EventKind) : (s.raiseConsolesIf c k).roles = s.roles := by cases c <;> rfl
@[simp] theorem State.raiseConsolesIf_rate (s : State) (c : Bool) (k : EventKind) : (s.raiseConsolesIf c k).rate = s.rate := by cases c <;> rfl
@[simp] theorem State.raiseConsolesIf_units (s : State) (c : Bool) (k : EventKind) : (s.raiseConsolesIf c k).units = s.units := by cases c <;> rfl
@[simp] theorem State.raiseConsolesIf_lodges (s : State) (c : Bool) (k : EventKind) : (s.raiseConsolesIf c k).lodges = s.lodges := by cases c <;> rfl
@[simp] theorem State.raiseConsolesIf_lists (s : State) (c : Bool) (k : EventKind) : (s.raiseConsolesIf c k).lists = s.lists := by cases c <;> rfl
@[simp] theorem State.raiseConsolesIf_channels (s : State) (c : Bool) (k : EventKind) : (s.raiseConsolesIf c k).channels = s.channels := by cases c <;> rfl
@[simp] theorem State.raiseConsolesIf_firstPtr (s : State) (c : Bool) (k : EventKind) : (s.raiseConsolesIf c k).firstPtr = s.firstPtr := by cases c <;> rfl
@[simp] theorem State.raiseConsolesIf_tierBPtr (s : State) (c : Bool) (k : EventKind) : (s.raiseConsolesIf c k).tierBPtr = s.tierBPtr := by cases c <;> rfl
@[simp] theorem State.raiseConsolesIf_streak (s : State) (c : Bool) (k : EventKind) : (s.raiseConsolesIf c k).streak = s.streak := by cases c <;> rfl
@[simp] theorem State.raiseConsolesIf_enable (s : State) (c : Bool) (k : EventKind) : (s.raiseConsolesIf c k).enable = s.enable := by cases c <;> rfl
@[simp] theorem State.raiseConsolesIf_attention (s : State) (c : Bool) (k : EventKind) : (s.raiseConsolesIf c k).attention = s.attention := by cases c <;> rfl
@[simp] theorem State.raiseConsolesIf_annOut (s : State) (c : Bool) (k : EventKind) : (s.raiseConsolesIf c k).annOut = s.annOut := by cases c <;> rfl
@[simp] theorem State.raiseConsolesIf_prevLow (s : State) (c : Bool) (k : EventKind) : (s.raiseConsolesIf c k).prevLow = s.prevLow := by cases c <;> rfl
@[simp] theorem State.raiseConsolesIf_recovered (s : State) (c : Bool) (k : EventKind) : (s.raiseConsolesIf c k).recovered = s.recovered := by cases c <;> rfl
@[simp] theorem State.raiseConsolesIf_picks (s : State) (c : Bool) (k : EventKind) : (s.raiseConsolesIf c k).picks = s.picks := by cases c <;> rfl
@[simp] theorem State.raiseConsolesIf_pending (s : State) (c : Bool) (k : EventKind) : (s.raiseConsolesIf c k).pending = s.pending := by cases c <;> rfl

/-! ### raiseAllIf -/

@[simp] theorem State.raiseAllIf_power (s : State) (c : Bool) (k : EventKind) : (s.raiseAllIf c k).power = s.power := by cases c <;> rfl
@[simp] theorem State.raiseAllIf_resetHeld (s : State) (c : Bool) (k : EventKind) : (s.raiseAllIf c k).resetHeld = s.resetHeld := by cases c <;> rfl
@[simp] theorem State.raiseAllIf_latch (s : State) (c : Bool) (k : EventKind) : (s.raiseAllIf c k).latch = s.latch := by cases c <;> rfl
@[simp] theorem State.raiseAllIf_everPowered (s : State) (c : Bool) (k : EventKind) : (s.raiseAllIf c k).everPowered = s.everPowered := by cases c <;> rfl
@[simp] theorem State.raiseAllIf_clock (s : State) (c : Bool) (k : EventKind) : (s.raiseAllIf c k).clock = s.clock := by cases c <;> rfl
@[simp] theorem State.raiseAllIf_store (s : State) (c : Bool) (k : EventKind) : (s.raiseAllIf c k).store = s.store := by cases c <;> rfl
@[simp] theorem State.raiseAllIf_lastNumber (s : State) (c : Bool) (k : EventKind) : (s.raiseAllIf c k).lastNumber = s.lastNumber := by cases c <;> rfl
@[simp] theorem State.raiseAllIf_filingCount (s : State) (c : Bool) (k : EventKind) : (s.raiseAllIf c k).filingCount = s.filingCount := by cases c <;> rfl
@[simp] theorem State.raiseAllIf_dupTable (s : State) (c : Bool) (k : EventKind) : (s.raiseAllIf c k).dupTable = s.dupTable := by cases c <;> rfl
@[simp] theorem State.raiseAllIf_ring (s : State) (c : Bool) (k : EventKind) : (s.raiseAllIf c k).ring = s.ring := by cases c <;> rfl
@[simp] theorem State.raiseAllIf_book (s : State) (c : Bool) (k : EventKind) : (s.raiseAllIf c k).book = s.book := by cases c <;> rfl
@[simp] theorem State.raiseAllIf_storeSet (s : State) (c : Bool) (k : EventKind) : (s.raiseAllIf c k).storeSet = s.storeSet := by cases c <;> rfl
@[simp] theorem State.raiseAllIf_ranking (s : State) (c : Bool) (k : EventKind) : (s.raiseAllIf c k).ranking = s.ranking := by cases c <;> rfl
@[simp] theorem State.raiseAllIf_dispatch (s : State) (c : Bool) (k : EventKind) : (s.raiseAllIf c k).dispatch = s.dispatch := by cases c <;> rfl
@[simp] theorem State.raiseAllIf_handOff (s : State) (c : Bool) (k : EventKind) : (s.raiseAllIf c k).handOff = s.handOff := by cases c <;> rfl
@[simp] theorem State.raiseAllIf_annFns (s : State) (c : Bool) (k : EventKind) : (s.raiseAllIf c k).annFns = s.annFns := by cases c <;> rfl
@[simp] theorem State.raiseAllIf_admin (s : State) (c : Bool) (k : EventKind) : (s.raiseAllIf c k).admin = s.admin := by cases c <;> rfl
@[simp] theorem State.raiseAllIf_counters (s : State) (c : Bool) (k : EventKind) : (s.raiseAllIf c k).counters = s.counters := by cases c <;> rfl
@[simp] theorem State.raiseAllIf_totals (s : State) (c : Bool) (k : EventKind) : (s.raiseAllIf c k).totals = s.totals := by cases c <;> rfl
@[simp] theorem State.raiseAllIf_roles (s : State) (c : Bool) (k : EventKind) : (s.raiseAllIf c k).roles = s.roles := by cases c <;> rfl
@[simp] theorem State.raiseAllIf_rate (s : State) (c : Bool) (k : EventKind) : (s.raiseAllIf c k).rate = s.rate := by cases c <;> rfl
@[simp] theorem State.raiseAllIf_units (s : State) (c : Bool) (k : EventKind) : (s.raiseAllIf c k).units = s.units := by cases c <;> rfl
@[simp] theorem State.raiseAllIf_lodges (s : State) (c : Bool) (k : EventKind) : (s.raiseAllIf c k).lodges = s.lodges := by cases c <;> rfl
@[simp] theorem State.raiseAllIf_lists (s : State) (c : Bool) (k : EventKind) : (s.raiseAllIf c k).lists = s.lists := by cases c <;> rfl
@[simp] theorem State.raiseAllIf_channels (s : State) (c : Bool) (k : EventKind) : (s.raiseAllIf c k).channels = s.channels := by cases c <;> rfl
@[simp] theorem State.raiseAllIf_firstPtr (s : State) (c : Bool) (k : EventKind) : (s.raiseAllIf c k).firstPtr = s.firstPtr := by cases c <;> rfl
@[simp] theorem State.raiseAllIf_tierBPtr (s : State) (c : Bool) (k : EventKind) : (s.raiseAllIf c k).tierBPtr = s.tierBPtr := by cases c <;> rfl
@[simp] theorem State.raiseAllIf_streak (s : State) (c : Bool) (k : EventKind) : (s.raiseAllIf c k).streak = s.streak := by cases c <;> rfl
@[simp] theorem State.raiseAllIf_enable (s : State) (c : Bool) (k : EventKind) : (s.raiseAllIf c k).enable = s.enable := by cases c <;> rfl
@[simp] theorem State.raiseAllIf_attention (s : State) (c : Bool) (k : EventKind) : (s.raiseAllIf c k).attention = s.attention := by cases c <;> rfl
@[simp] theorem State.raiseAllIf_annOut (s : State) (c : Bool) (k : EventKind) : (s.raiseAllIf c k).annOut = s.annOut := by cases c <;> rfl
@[simp] theorem State.raiseAllIf_prevLow (s : State) (c : Bool) (k : EventKind) : (s.raiseAllIf c k).prevLow = s.prevLow := by cases c <;> rfl
@[simp] theorem State.raiseAllIf_recovered (s : State) (c : Bool) (k : EventKind) : (s.raiseAllIf c k).recovered = s.recovered := by cases c <;> rfl
@[simp] theorem State.raiseAllIf_picks (s : State) (c : Bool) (k : EventKind) : (s.raiseAllIf c k).picks = s.picks := by cases c <;> rfl
@[simp] theorem State.raiseAllIf_pending (s : State) (c : Bool) (k : EventKind) : (s.raiseAllIf c k).pending = s.pending := by cases c <;> rfl

/-! ### checkLow -/

@[simp] theorem State.checkLow_power (s : State) : (s.checkLow).power = s.power := State.raiseConsolesIf_power ..
@[simp] theorem State.checkLow_resetHeld (s : State) : (s.checkLow).resetHeld = s.resetHeld := State.raiseConsolesIf_resetHeld ..
@[simp] theorem State.checkLow_latch (s : State) : (s.checkLow).latch = s.latch := State.raiseConsolesIf_latch ..
@[simp] theorem State.checkLow_everPowered (s : State) : (s.checkLow).everPowered = s.everPowered := State.raiseConsolesIf_everPowered ..
@[simp] theorem State.checkLow_clock (s : State) : (s.checkLow).clock = s.clock := State.raiseConsolesIf_clock ..
@[simp] theorem State.checkLow_store (s : State) : (s.checkLow).store = s.store := State.raiseConsolesIf_store ..
@[simp] theorem State.checkLow_lastNumber (s : State) : (s.checkLow).lastNumber = s.lastNumber := State.raiseConsolesIf_lastNumber ..
@[simp] theorem State.checkLow_filingCount (s : State) : (s.checkLow).filingCount = s.filingCount := State.raiseConsolesIf_filingCount ..
@[simp] theorem State.checkLow_dupTable (s : State) : (s.checkLow).dupTable = s.dupTable := State.raiseConsolesIf_dupTable ..
@[simp] theorem State.checkLow_ring (s : State) : (s.checkLow).ring = s.ring := State.raiseConsolesIf_ring ..
@[simp] theorem State.checkLow_book (s : State) : (s.checkLow).book = s.book := State.raiseConsolesIf_book ..
@[simp] theorem State.checkLow_storeSet (s : State) : (s.checkLow).storeSet = s.storeSet := State.raiseConsolesIf_storeSet ..
@[simp] theorem State.checkLow_ranking (s : State) : (s.checkLow).ranking = s.ranking := State.raiseConsolesIf_ranking ..
@[simp] theorem State.checkLow_dispatch (s : State) : (s.checkLow).dispatch = s.dispatch := State.raiseConsolesIf_dispatch ..
@[simp] theorem State.checkLow_handOff (s : State) : (s.checkLow).handOff = s.handOff := State.raiseConsolesIf_handOff ..
@[simp] theorem State.checkLow_annFns (s : State) : (s.checkLow).annFns = s.annFns := State.raiseConsolesIf_annFns ..
@[simp] theorem State.checkLow_admin (s : State) : (s.checkLow).admin = s.admin := State.raiseConsolesIf_admin ..
@[simp] theorem State.checkLow_counters (s : State) : (s.checkLow).counters = s.counters := State.raiseConsolesIf_counters ..
@[simp] theorem State.checkLow_totals (s : State) : (s.checkLow).totals = s.totals := State.raiseConsolesIf_totals ..
@[simp] theorem State.checkLow_roles (s : State) : (s.checkLow).roles = s.roles := State.raiseConsolesIf_roles ..
@[simp] theorem State.checkLow_rate (s : State) : (s.checkLow).rate = s.rate := State.raiseConsolesIf_rate ..
@[simp] theorem State.checkLow_units (s : State) : (s.checkLow).units = s.units := State.raiseConsolesIf_units ..
@[simp] theorem State.checkLow_lodges (s : State) : (s.checkLow).lodges = s.lodges := State.raiseConsolesIf_lodges ..
@[simp] theorem State.checkLow_lists (s : State) : (s.checkLow).lists = s.lists := State.raiseConsolesIf_lists ..
@[simp] theorem State.checkLow_channels (s : State) : (s.checkLow).channels = s.channels := State.raiseConsolesIf_channels ..
@[simp] theorem State.checkLow_firstPtr (s : State) : (s.checkLow).firstPtr = s.firstPtr := State.raiseConsolesIf_firstPtr ..
@[simp] theorem State.checkLow_tierBPtr (s : State) : (s.checkLow).tierBPtr = s.tierBPtr := State.raiseConsolesIf_tierBPtr ..
@[simp] theorem State.checkLow_streak (s : State) : (s.checkLow).streak = s.streak := State.raiseConsolesIf_streak ..
@[simp] theorem State.checkLow_enable (s : State) : (s.checkLow).enable = s.enable := State.raiseConsolesIf_enable ..
@[simp] theorem State.checkLow_attention (s : State) : (s.checkLow).attention = s.attention := State.raiseConsolesIf_attention ..
@[simp] theorem State.checkLow_annOut (s : State) : (s.checkLow).annOut = s.annOut := State.raiseConsolesIf_annOut ..
@[simp] theorem State.checkLow_prevLow (s : State) : (s.checkLow).prevLow = s.low := rfl
@[simp] theorem State.checkLow_recovered (s : State) : (s.checkLow).recovered = s.recovered := State.raiseConsolesIf_recovered ..
@[simp] theorem State.checkLow_picks (s : State) : (s.checkLow).picks = s.picks := State.raiseConsolesIf_picks ..
@[simp] theorem State.checkLow_pending (s : State) : (s.checkLow).pending = s.pending := State.raiseConsolesIf_pending ..

/-! ### writeEntry -/

@[simp] theorem State.writeEntry_power (s : State) (e : Nat) (r : Bool) (st : Station) : (s.writeEntry e r st).power = s.power := by cases r <;> rfl
@[simp] theorem State.writeEntry_resetHeld (s : State) (e : Nat) (r : Bool) (st : Station) : (s.writeEntry e r st).resetHeld = s.resetHeld := by cases r <;> rfl
@[simp] theorem State.writeEntry_latch (s : State) (e : Nat) (r : Bool) (st : Station) : (s.writeEntry e r st).latch = s.latch := by cases r <;> rfl
@[simp] theorem State.writeEntry_everPowered (s : State) (e : Nat) (r : Bool) (st : Station) : (s.writeEntry e r st).everPowered = s.everPowered := by cases r <;> rfl
@[simp] theorem State.writeEntry_clock (s : State) (e : Nat) (r : Bool) (st : Station) : (s.writeEntry e r st).clock = s.clock := by cases r <;> rfl
@[simp] theorem State.writeEntry_store (s : State) (e : Nat) (r : Bool) (st : Station) : (s.writeEntry e r st).store = s.store := by cases r <;> rfl
@[simp] theorem State.writeEntry_lastNumber (s : State) (e : Nat) (r : Bool) (st : Station) : (s.writeEntry e r st).lastNumber = s.lastNumber := by cases r <;> rfl
@[simp] theorem State.writeEntry_filingCount (s : State) (e : Nat) (r : Bool) (st : Station) : (s.writeEntry e r st).filingCount = s.filingCount := by cases r <;> rfl
@[simp] theorem State.writeEntry_dupTable (s : State) (e : Nat) (r : Bool) (st : Station) : (s.writeEntry e r st).dupTable = s.dupTable := by cases r <;> rfl
@[simp] theorem State.writeEntry_ring (s : State) (e : Nat) (r : Bool) (st : Station) : (s.writeEntry e r st).ring = s.ring := by cases r <;> rfl
@[simp] theorem State.writeEntry_book (s : State) (e : Nat) (r : Bool) (st : Station) : (s.writeEntry e r st).book = s.book.set e (some st) := by cases r <;> rfl
@[simp] theorem State.writeEntry_storeSet (s : State) (e : Nat) (r : Bool) (st : Station) : (s.writeEntry e r st).storeSet = s.storeSet := by cases r <;> rfl
@[simp] theorem State.writeEntry_ranking (s : State) (e : Nat) (r : Bool) (st : Station) : (s.writeEntry e r st).ranking = s.ranking := by cases r <;> rfl
@[simp] theorem State.writeEntry_dispatch (s : State) (e : Nat) (r : Bool) (st : Station) : (s.writeEntry e r st).dispatch = s.dispatch := by cases r <;> rfl
@[simp] theorem State.writeEntry_handOff (s : State) (e : Nat) (r : Bool) (st : Station) : (s.writeEntry e r st).handOff = s.handOff := by cases r <;> rfl
@[simp] theorem State.writeEntry_annFns (s : State) (e : Nat) (r : Bool) (st : Station) : (s.writeEntry e r st).annFns = s.annFns := by cases r <;> rfl
@[simp] theorem State.writeEntry_admin (s : State) (e : Nat) (r : Bool) (st : Station) : (s.writeEntry e r st).admin = s.admin := by cases r <;> rfl
@[simp] theorem State.writeEntry_counters (s : State) (e : Nat) (r : Bool) (st : Station) : (s.writeEntry e r st).counters = s.counters := by cases r <;> rfl
@[simp] theorem State.writeEntry_totals (s : State) (e : Nat) (r : Bool) (st : Station) : (s.writeEntry e r st).totals = s.totals := by cases r <;> rfl
@[simp] theorem State.writeEntry_roles (s : State) (e : Nat) (r : Bool) (st : Station) : (s.writeEntry e r st).roles = s.roles := by cases r <;> rfl
@[simp] theorem State.writeEntry_rate (s : State) (e : Nat) (r : Bool) (st : Station) : (s.writeEntry e r st).rate = s.rate := by cases r <;> rfl
@[simp] theorem State.writeEntry_units (s : State) (e : Nat) (r : Bool) (st : Station) : (s.writeEntry e r st).units = s.units := by cases r <;> rfl
@[simp] theorem State.writeEntry_lodges (s : State) (e : Nat) (r : Bool) (st : Station) : (s.writeEntry e r st).lodges = s.lodges := by cases r <;> rfl
@[simp] theorem State.writeEntry_lists (s : State) (e : Nat) (r : Bool) (st : Station) : (s.writeEntry e r st).lists = s.lists := by cases r <;> rfl
@[simp] theorem State.writeEntry_channels (s : State) (e : Nat) (r : Bool) (st : Station) : (s.writeEntry e r st).channels = s.channels := by cases r <;> rfl
@[simp] theorem State.writeEntry_firstPtr (s : State) (e : Nat) (r : Bool) (st : Station) : (s.writeEntry e r st).firstPtr = s.firstPtr := by cases r <;> rfl
@[simp] theorem State.writeEntry_tierBPtr (s : State) (e : Nat) (r : Bool) (st : Station) : (s.writeEntry e r st).tierBPtr = s.tierBPtr := by cases r <;> rfl
@[simp] theorem State.writeEntry_status (s : State) (e : Nat) (r : Bool) (st : Station) : (s.writeEntry e r st).status = s.status := by cases r <;> rfl
@[simp] theorem State.writeEntry_enable (s : State) (e : Nat) (r : Bool) (st : Station) : (s.writeEntry e r st).enable = s.enable := by cases r <;> rfl
@[simp] theorem State.writeEntry_attention (s : State) (e : Nat) (r : Bool) (st : Station) : (s.writeEntry e r st).attention = s.attention := by cases r <;> rfl
@[simp] theorem State.writeEntry_annOut (s : State) (e : Nat) (r : Bool) (st : Station) : (s.writeEntry e r st).annOut = s.annOut := by cases r <;> rfl
@[simp] theorem State.writeEntry_prevLow (s : State) (e : Nat) (r : Bool) (st : Station) : (s.writeEntry e r st).prevLow = s.prevLow := by cases r <;> rfl
@[simp] theorem State.writeEntry_recovered (s : State) (e : Nat) (r : Bool) (st : Station) : (s.writeEntry e r st).recovered = s.recovered := by cases r <;> rfl
@[simp] theorem State.writeEntry_picks (s : State) (e : Nat) (r : Bool) (st : Station) : (s.writeEntry e r st).picks = s.picks := by cases r <;> rfl
@[simp] theorem State.writeEntry_pending (s : State) (e : Nat) (r : Bool) (st : Station) : (s.writeEntry e r st).pending = s.pending := by cases r <;> rfl

/-! ### setReceiver -/

@[simp] theorem State.setReceiver_power (s : State) (p : Port) (r : Receiver) : (s.setReceiver p r).power = s.power := rfl
@[simp] theorem State.setReceiver_resetHeld (s : State) (p : Port) (r : Receiver) : (s.setReceiver p r).resetHeld = s.resetHeld := rfl
@[simp] theorem State.setReceiver_latch (s : State) (p : Port) (r : Receiver) : (s.setReceiver p r).latch = s.latch := rfl
@[simp] theorem State.setReceiver_everPowered (s : State) (p : Port) (r : Receiver) : (s.setReceiver p r).everPowered = s.everPowered := rfl
@[simp] theorem State.setReceiver_clock (s : State) (p : Port) (r : Receiver) : (s.setReceiver p r).clock = s.clock := rfl
@[simp] theorem State.setReceiver_store (s : State) (p : Port) (r : Receiver) : (s.setReceiver p r).store = s.store := rfl
@[simp] theorem State.setReceiver_lastNumber (s : State) (p : Port) (r : Receiver) : (s.setReceiver p r).lastNumber = s.lastNumber := rfl
@[simp] theorem State.setReceiver_filingCount (s : State) (p : Port) (r : Receiver) : (s.setReceiver p r).filingCount = s.filingCount := rfl
@[simp] theorem State.setReceiver_dupTable (s : State) (p : Port) (r : Receiver) : (s.setReceiver p r).dupTable = s.dupTable := rfl
@[simp] theorem State.setReceiver_ring (s : State) (p : Port) (r : Receiver) : (s.setReceiver p r).ring = s.ring := rfl
@[simp] theorem State.setReceiver_book (s : State) (p : Port) (r : Receiver) : (s.setReceiver p r).book = s.book := rfl
@[simp] theorem State.setReceiver_storeSet (s : State) (p : Port) (r : Receiver) : (s.setReceiver p r).storeSet = s.storeSet := rfl
@[simp] theorem State.setReceiver_ranking (s : State) (p : Port) (r : Receiver) : (s.setReceiver p r).ranking = s.ranking := rfl
@[simp] theorem State.setReceiver_dispatch (s : State) (p : Port) (r : Receiver) : (s.setReceiver p r).dispatch = s.dispatch := rfl
@[simp] theorem State.setReceiver_handOff (s : State) (p : Port) (r : Receiver) : (s.setReceiver p r).handOff = s.handOff := rfl
@[simp] theorem State.setReceiver_annFns (s : State) (p : Port) (r : Receiver) : (s.setReceiver p r).annFns = s.annFns := rfl
@[simp] theorem State.setReceiver_admin (s : State) (p : Port) (r : Receiver) : (s.setReceiver p r).admin = s.admin := rfl
@[simp] theorem State.setReceiver_counters (s : State) (p : Port) (r : Receiver) : (s.setReceiver p r).counters = s.counters := rfl
@[simp] theorem State.setReceiver_totals (s : State) (p : Port) (r : Receiver) : (s.setReceiver p r).totals = s.totals := rfl
@[simp] theorem State.setReceiver_roles (s : State) (p : Port) (r : Receiver) : (s.setReceiver p r).roles = s.roles := rfl
@[simp] theorem State.setReceiver_rate (s : State) (p : Port) (r : Receiver) : (s.setReceiver p r).rate = s.rate := rfl
@[simp] theorem State.setReceiver_lodges (s : State) (p : Port) (r : Receiver) : (s.setReceiver p r).lodges = s.lodges := rfl
@[simp] theorem State.setReceiver_lists (s : State) (p : Port) (r : Receiver) : (s.setReceiver p r).lists = s.lists := rfl
@[simp] theorem State.setReceiver_channels (s : State) (p : Port) (r : Receiver) : (s.setReceiver p r).channels = s.channels := rfl
@[simp] theorem State.setReceiver_firstPtr (s : State) (p : Port) (r : Receiver) : (s.setReceiver p r).firstPtr = s.firstPtr := rfl
@[simp] theorem State.setReceiver_tierBPtr (s : State) (p : Port) (r : Receiver) : (s.setReceiver p r).tierBPtr = s.tierBPtr := rfl
@[simp] theorem State.setReceiver_streak (s : State) (p : Port) (r : Receiver) : (s.setReceiver p r).streak = s.streak := rfl
@[simp] theorem State.setReceiver_status (s : State) (p : Port) (r : Receiver) : (s.setReceiver p r).status = s.status := rfl
@[simp] theorem State.setReceiver_enable (s : State) (p : Port) (r : Receiver) : (s.setReceiver p r).enable = s.enable := rfl
@[simp] theorem State.setReceiver_attention (s : State) (p : Port) (r : Receiver) : (s.setReceiver p r).attention = s.attention := rfl
@[simp] theorem State.setReceiver_annOut (s : State) (p : Port) (r : Receiver) : (s.setReceiver p r).annOut = s.annOut := rfl
@[simp] theorem State.setReceiver_prevLow (s : State) (p : Port) (r : Receiver) : (s.setReceiver p r).prevLow = s.prevLow := rfl
@[simp] theorem State.setReceiver_recovered (s : State) (p : Port) (r : Receiver) : (s.setReceiver p r).recovered = s.recovered := rfl
@[simp] theorem State.setReceiver_picks (s : State) (p : Port) (r : Receiver) : (s.setReceiver p r).picks = s.picks := rfl
@[simp] theorem State.setReceiver_pending (s : State) (p : Port) (r : Receiver) : (s.setReceiver p r).pending = s.pending := rfl

/-! ### setChan -/

@[simp] theorem State.setChan_power (s : State) (p : Port) (x : ChanState) : (s.setChan p x).power = s.power := rfl
@[simp] theorem State.setChan_resetHeld (s : State) (p : Port) (x : ChanState) : (s.setChan p x).resetHeld = s.resetHeld := rfl
@[simp] theorem State.setChan_latch (s : State) (p : Port) (x : ChanState) : (s.setChan p x).latch = s.latch := rfl
@[simp] theorem State.setChan_everPowered (s : State) (p : Port) (x : ChanState) : (s.setChan p x).everPowered = s.everPowered := rfl
@[simp] theorem State.setChan_clock (s : State) (p : Port) (x : ChanState) : (s.setChan p x).clock = s.clock := rfl
@[simp] theorem State.setChan_store (s : State) (p : Port) (x : ChanState) : (s.setChan p x).store = s.store := rfl
@[simp] theorem State.setChan_lastNumber (s : State) (p : Port) (x : ChanState) : (s.setChan p x).lastNumber = s.lastNumber := rfl
@[simp] theorem State.setChan_filingCount (s : State) (p : Port) (x : ChanState) : (s.setChan p x).filingCount = s.filingCount := rfl
@[simp] theorem State.setChan_dupTable (s : State) (p : Port) (x : ChanState) : (s.setChan p x).dupTable = s.dupTable := rfl
@[simp] theorem State.setChan_ring (s : State) (p : Port) (x : ChanState) : (s.setChan p x).ring = s.ring := rfl
@[simp] theorem State.setChan_book (s : State) (p : Port) (x : ChanState) : (s.setChan p x).book = s.book := rfl
@[simp] theorem State.setChan_storeSet (s : State) (p : Port) (x : ChanState) : (s.setChan p x).storeSet = s.storeSet := rfl
@[simp] theorem State.setChan_ranking (s : State) (p : Port) (x : ChanState) : (s.setChan p x).ranking = s.ranking := rfl
@[simp] theorem State.setChan_dispatch (s : State) (p : Port) (x : ChanState) : (s.setChan p x).dispatch = s.dispatch := rfl
@[simp] theorem State.setChan_handOff (s : State) (p : Port) (x : ChanState) : (s.setChan p x).handOff = s.handOff := rfl
@[simp] theorem State.setChan_annFns (s : State) (p : Port) (x : ChanState) : (s.setChan p x).annFns = s.annFns := rfl
@[simp] theorem State.setChan_admin (s : State) (p : Port) (x : ChanState) : (s.setChan p x).admin = s.admin := rfl
@[simp] theorem State.setChan_counters (s : State) (p : Port) (x : ChanState) : (s.setChan p x).counters = s.counters := rfl
@[simp] theorem State.setChan_totals (s : State) (p : Port) (x : ChanState) : (s.setChan p x).totals = s.totals := rfl
@[simp] theorem State.setChan_roles (s : State) (p : Port) (x : ChanState) : (s.setChan p x).roles = s.roles := rfl
@[simp] theorem State.setChan_rate (s : State) (p : Port) (x : ChanState) : (s.setChan p x).rate = s.rate := rfl
@[simp] theorem State.setChan_units (s : State) (p : Port) (x : ChanState) : (s.setChan p x).units = s.units := rfl
@[simp] theorem State.setChan_lodges (s : State) (p : Port) (x : ChanState) : (s.setChan p x).lodges = s.lodges := rfl
@[simp] theorem State.setChan_lists (s : State) (p : Port) (x : ChanState) : (s.setChan p x).lists = s.lists := rfl
@[simp] theorem State.setChan_firstPtr (s : State) (p : Port) (x : ChanState) : (s.setChan p x).firstPtr = s.firstPtr := rfl
@[simp] theorem State.setChan_tierBPtr (s : State) (p : Port) (x : ChanState) : (s.setChan p x).tierBPtr = s.tierBPtr := rfl
@[simp] theorem State.setChan_streak (s : State) (p : Port) (x : ChanState) : (s.setChan p x).streak = s.streak := rfl
@[simp] theorem State.setChan_status (s : State) (p : Port) (x : ChanState) : (s.setChan p x).status = s.status := rfl
@[simp] theorem State.setChan_enable (s : State) (p : Port) (x : ChanState) : (s.setChan p x).enable = s.enable := rfl
@[simp] theorem State.setChan_attention (s : State) (p : Port) (x : ChanState) : (s.setChan p x).attention = s.attention := rfl
@[simp] theorem State.setChan_annOut (s : State) (p : Port) (x : ChanState) : (s.setChan p x).annOut = s.annOut := rfl
@[simp] theorem State.setChan_prevLow (s : State) (p : Port) (x : ChanState) : (s.setChan p x).prevLow = s.prevLow := rfl
@[simp] theorem State.setChan_recovered (s : State) (p : Port) (x : ChanState) : (s.setChan p x).recovered = s.recovered := rfl
@[simp] theorem State.setChan_picks (s : State) (p : Port) (x : ChanState) : (s.setChan p x).picks = s.picks := rfl
@[simp] theorem State.setChan_pending (s : State) (p : Port) (x : ChanState) : (s.setChan p x).pending = s.pending := rfl

/-! ### refreshOutputs -/

@[simp] theorem State.refreshOutputs_power (s : State) : (s.refreshOutputs).power = s.power := rfl
@[simp] theorem State.refreshOutputs_resetHeld (s : State) : (s.refreshOutputs).resetHeld = s.resetHeld := rfl
@[simp] theorem State.refreshOutputs_latch (s : State) : (s.refreshOutputs).latch = s.latch := rfl
@[simp] theorem State.refreshOutputs_everPowered (s : State) : (s.refreshOutputs).everPowered = s.everPowered := rfl
@[simp] theorem State.refreshOutputs_clock (s : State) : (s.refreshOutputs).clock = s.clock := rfl
@[simp] theorem State.refreshOutputs_store (s : State) : (s.refreshOutputs).store = s.store := rfl
@[simp] theorem State.refreshOutputs_lastNumber (s : State) : (s.refreshOutputs).lastNumber = s.lastNumber := rfl
@[simp] theorem State.refreshOutputs_filingCount (s : State) : (s.refreshOutputs).filingCount = s.filingCount := rfl
@[simp] theorem State.refreshOutputs_dupTable (s : State) : (s.refreshOutputs).dupTable = s.dupTable := rfl
@[simp] theorem State.refreshOutputs_ring (s : State) : (s.refreshOutputs).ring = s.ring := rfl
@[simp] theorem State.refreshOutputs_book (s : State) : (s.refreshOutputs).book = s.book := rfl
@[simp] theorem State.refreshOutputs_storeSet (s : State) : (s.refreshOutputs).storeSet = s.storeSet := rfl
@[simp] theorem State.refreshOutputs_ranking (s : State) : (s.refreshOutputs).ranking = s.ranking := rfl
@[simp] theorem State.refreshOutputs_dispatch (s : State) : (s.refreshOutputs).dispatch = s.dispatch := rfl
@[simp] theorem State.refreshOutputs_handOff (s : State) : (s.refreshOutputs).handOff = s.handOff := rfl
@[simp] theorem State.refreshOutputs_annFns (s : State) : (s.refreshOutputs).annFns = s.annFns := rfl
@[simp] theorem State.refreshOutputs_admin (s : State) : (s.refreshOutputs).admin = s.admin := rfl
@[simp] theorem State.refreshOutputs_counters (s : State) : (s.refreshOutputs).counters = s.counters := rfl
@[simp] theorem State.refreshOutputs_totals (s : State) : (s.refreshOutputs).totals = s.totals := rfl
@[simp] theorem State.refreshOutputs_roles (s : State) : (s.refreshOutputs).roles = s.roles := rfl
@[simp] theorem State.refreshOutputs_rate (s : State) : (s.refreshOutputs).rate = s.rate := rfl
@[simp] theorem State.refreshOutputs_units (s : State) : (s.refreshOutputs).units = s.units := rfl
@[simp] theorem State.refreshOutputs_lodges (s : State) : (s.refreshOutputs).lodges = s.lodges := rfl
@[simp] theorem State.refreshOutputs_lists (s : State) : (s.refreshOutputs).lists = s.lists := rfl
@[simp] theorem State.refreshOutputs_channels (s : State) : (s.refreshOutputs).channels = s.channels := rfl
@[simp] theorem State.refreshOutputs_firstPtr (s : State) : (s.refreshOutputs).firstPtr = s.firstPtr := rfl
@[simp] theorem State.refreshOutputs_tierBPtr (s : State) : (s.refreshOutputs).tierBPtr = s.tierBPtr := rfl
@[simp] theorem State.refreshOutputs_streak (s : State) : (s.refreshOutputs).streak = s.streak := rfl
@[simp] theorem State.refreshOutputs_status (s : State) : (s.refreshOutputs).status = s.status := rfl
@[simp] theorem State.refreshOutputs_enable (s : State) : (s.refreshOutputs).enable = s.enable := rfl
@[simp] theorem State.refreshOutputs_attention (s : State) : (s.refreshOutputs).attention = .build s.attentionOf := rfl
@[simp] theorem State.refreshOutputs_annOut (s : State) : (s.refreshOutputs).annOut = s.annFns.map fun f => s.inService && s.annHolds f := rfl
@[simp] theorem State.refreshOutputs_prevLow (s : State) : (s.refreshOutputs).prevLow = s.prevLow := rfl
@[simp] theorem State.refreshOutputs_recovered (s : State) : (s.refreshOutputs).recovered = s.recovered := rfl
@[simp] theorem State.refreshOutputs_picks (s : State) : (s.refreshOutputs).picks = s.picks := rfl
@[simp] theorem State.refreshOutputs_pending (s : State) : (s.refreshOutputs).pending = s.pending := rfl

/-! ### The events of a port after a raise -/

@[simp] theorem State.raiseWhere_status_get (s : State) (k : EventKind) (who : Port → Bool) (p : Port) :
    (s.raiseWhere k who).status.get p = if who p then s.status.get p ||| (eventBit k &&& routedSet (s.roles.get p)) else s.status.get p := by
  simp [State.raiseWhere]

end Sys2Proof.Machine
end

