-- ==== Sys2Proof/Laws/Ops.lean ====
section
/-! SUPPORT. One lemma for each shared operation, saying all that it does: what closes an event, the service of a request, a raise, a
copy found and changed. Later proofs cite these and do not unfold the operations. -/
namespace Sys2Proof.Machine

/-! ### What closes an event (R102, R173, R175) -/

@[simp] theorem State.hasPair_updUnit (s : State) (p q : Port) (f : PortUnit → PortUnit) : (s.updUnit p f).hasPair q = s.hasPair q := rfl
@[simp] theorem State.closeAsk_none (s : State) (p : Port) : s.closeAsk p none = none := rfl
@[simp] theorem State.closeAsk_replying (s : State) (p : Port) (f : Frame) (reply : List Byte) (gone : Nat) :
    s.closeAsk p (some (.replying f reply gone)) = some (.replying f reply gone) := rfl
@[simp] theorem State.closeAsk_updUnit (s : State) (p q : Port) (f : PortUnit → PortUnit) : (s.updUnit p f).closeAsk q = s.closeAsk q := rfl
@[simp] theorem State.hasPair_refreshOutputs (s : State) (q : Port) : s.refreshOutputs.hasPair q = s.hasPair q := rfl
@[simp] theorem State.attentionOf_refreshOutputs (s : State) : s.refreshOutputs.attentionOf = s.attentionOf := rfl
@[simp] theorem State.annHolds_refreshOutputs (s : State) : s.refreshOutputs.annHolds = s.annHolds := rfl
@[simp] theorem State.inService_refreshOutputs (s : State) : s.refreshOutputs.inService = s.inService := rfl

/-- All that closing an event does. -/
theorem State.finish_eq (s : State) :
    s.finish = { s with
      units := .build fun q => { s.units.get q with service := s.closeAsk q (s.serviceOf q) }
      attention := .build s.attentionOf
      annOut := s.annFns.map fun f => s.inService && s.annHolds f } := by
  simp only [State.finish, Port.all, List.foldl, State.buildAskReply, State.closeAsk_updUnit]
  generalize s.closeAsk = h
  simp only [State.updUnit, PerPort.set, PerPort.get, State.refreshOutputs]
  rfl

@[simp] theorem State.finish_hasPair (s : State) (q : Port) : s.finish.hasPair q = s.hasPair q := by rw [finish_eq]; rfl
@[simp] theorem State.finish_closeAsk (s : State) (q : Port) : s.finish.closeAsk q = s.closeAsk q := by rw [finish_eq]; rfl
@[simp] theorem State.finish_behind (s : State) : s.finish.behind = s.behind := by rw [finish_eq]; rfl
theorem State.finish_unit (s : State) (q : Port) :
    s.finish.units.get q = { s.units.get q with service := s.closeAsk q (s.serviceOf q) } := by
  rw [finish_eq]; simp
theorem State.finish_outputs (s : State) : s.finish.outputsAgree := by
  rw [finish_eq]; exact ⟨fun p => by simp; rfl, rfl⟩

/-- Closing an event over a state with the lines of `s` leaves every line as it was, but for the ASK replies that fall due. -/
theorem State.finish_follows {t s : State} (h : t.units = s.units) : t.finish.follows s :=
  ⟨fun q => by simp [State.lineFollows, finish_unit, State.serviceOf, h], finish_outputs t⟩

/-- Closing an event that has changed one unit. -/
theorem State.finish_lineEvent {t s : State} {p : Port} {u : PortUnit} (h : t.units = s.units.set p u) : t.finish.lineEvent s p u := by
  refine ⟨by simp [finish_unit, State.serviceOf, h], fun q hq => ?_, finish_outputs t⟩
  simp [State.lineFollows, finish_unit, State.serviceOf, h, PerPort.get_set_ne _ _ hq]

/-- Two states that agree behind the lines agree in every field there. -/
theorem State.behind_ext {s t : State} (h : s.behind = t.behind) :
    ∃ units attention annOut, s = { t with units, attention, annOut } :=
  ⟨s.units, s.attention, s.annOut, by cases s; cases t; simp only [State.behind, State.mk.injEq] at h ⊢; simp_all⟩

/-! ### A character time on the lines (R156) -/

@[simp] theorem State.sendLines_behind (s : State) : s.sendLines.behind = s.behind := rfl

/-- All that a character time does: a reply that has more than one byte to go goes on by one byte at a port that is heard; every other unit, and
everything else, is as it was. -/
theorem State.sendLines_unit (s : State) (p : Port) :
    s.sendLines.units.get p =
      if s.hears p then { s.units.get p with service := (s.serviceOf p).map Service.sendByte } else s.units.get p := by
  simp [State.sendLines, State.serviceOf]

/-! ### The service of a request (R162 to R164) -/

/-- The service of a request at a free port: the three tests, the owning block's service, the reply, the close of the event. -/
theorem submit_free {s : State} {p : Port} (h : s.freeAt p = true) (f : Frame) (serve : State → State × Answer) :
    submit s p f serve = .next (s.intoService p f serve).finish := by
  simp only [State.freeAt, Bool.and_eq_true, Option.isNone_iff_eq_none, State.serviceOf] at h
  simp [submit, h.1, State.arrive, h.2]

/-- A request whose frame passes the three tests of its port is served by its owning block. -/
theorem submit_served {s : State} {p : Port} {f : Frame} {serve : State → State × Answer} {r : Result} {fields : List Byte}
    (h : s.freeAt p = true) (hk : isRequestKind f.kind = true) (hr : mayUse (s.roles.get p) f.kind = true)
    (hl : fieldLengthOk f.kind f.fields.length = true) (hu : (serve s).1.units = s.units) (ha : (serve s).2 = .reply r fields) :
    ∃ t, submit s p f serve = .next t ∧ t.behind = (serve s).1.behind ∧ t.answers s p f r fields := by
  refine ⟨_, submit_free h f serve, ?_, ?_, ?_, State.finish_outputs _⟩
  · simp [State.intoService, State.decodeTests, hk, hr, hl]; rfl
  · simp [State.finish_unit, State.intoService, State.decodeTests, hk, hr, hl, State.serviceOf, hu, ha, serviceFor, State.closeAsk]
  · intro q hq
    simp [State.lineFollows, State.finish_unit, State.intoService, State.decodeTests, hk, hr, hl, State.serviceOf, hu,
      PerPort.get_set_ne _ _ hq]

/-! ### Time and counts (R2, R141) -/

theorem later_le (n seconds : Nat) : later n seconds ≤ Config.clockMax := Nat.min_le_right _ _
theorem bump_le (n : Nat) : bump n ≤ Config.counterMax := Nat.min_le_right _ _

/-! ### Raising events (R169) -/

/-- A raise touches the status sets alone. -/
theorem State.raiseWhere_frame (s : State) (k : EventKind) (who : Port → Bool) :
    s.raiseWhere k who = { s with status := (s.raiseWhere k who).status } := rfl

/-- A kind that every port of the class can receive stands in the status set of each, and no other set changes. -/
theorem State.raiseWhere_statusAt {s : State} {k : EventKind} {who : Port → Bool}
    (h : ∀ p, who p = true → eventBit k &&& routedSet (s.roles.get p) = eventBit k) :
    (s.raiseWhere k who).status = s.statusAt k who := by
  apply PerPort.ext_get
  intro p
  simp only [State.raiseWhere, State.statusAt, PerPort.get_build]
  by_cases hp : who p = true
  · simp [hp, h p hp]
  · simp [hp]

/-- The events that only consoles receive are in a console's routed set. -/
theorem State.raiseConsoles_status (s : State) {k : EventKind} (hk : k ≠ .granted) :
    (s.raiseConsoles k).status = s.statusAt k s.isConsole := by
  apply State.raiseWhere_statusAt
  intro p hp
  have hr : s.roles.get p = .console := by simpa [State.isConsole] using hp
  rw [hr]
  cases k <;> first | rfl | exact absurd rfl hk

/-! ### Messages and copies -/

/-- A message changed in place, its number kept, is found changed, and every other as it was. -/
theorem State.findMsg_updMsg {s : State} {n : Nat} {f : Message → Message} (hf : ∀ m, (f m).number = m.number) (k : Nat) :
    (s.updMsg n f).findMsg k = if k = n then (s.findMsg n).map f else s.findMsg k := by
  have key : ∀ l : List Message, (l.map fun m => if m.number == n then f m else m).find? (fun m => m.number == k)
      = if k = n then (l.find? fun m => m.number == n).map f else l.find? fun m => m.number == k := by
    intro l
    induction l with
    | nil => split <;> rfl
    | cons m l ih =>
      simp only [beq_iff_eq] at ih
      by_cases hm : m.number = n
      · by_cases hk : k = n
        · simp [hm, hk, hf]
        · have hn : (n == k) = false := by simpa using fun h : n = k => hk h.symm
          simp [hm, hk, hf, hn, ih]
      · by_cases hk : k = n
        · subst hk
          have hn : (m.number == k) = false := by simpa using hm
          simp [hm, hn, ih]
        · simp [hm, hk, List.find?_cons, ih]
  exact key s.store

/-- The change of one copy touches the store, the book, the lists and the status sets, and nothing else. -/
theorem State.changeCopy_frame (s : State) (n i : Nat) (f : Copy → Copy) :
    s.changeCopy n i f = { s with
      store := (s.changeCopy n i f).store, book := (s.changeCopy n i f).book
      lists := (s.changeCopy n i f).lists, status := (s.changeCopy n i f).status } := by
  unfold State.changeCopy
  split
  · rfl
  · dsimp only [State.followHolder, State.raiseConsolesIf]
    split <;> split <;> first | rfl | (split <;> first | rfl | (split <;> rfl))

/-- A change of a copy that is not there is none. -/
theorem State.changeCopy_none {s : State} {n i : Nat} (h : s.copyAt n i = none) (f : Copy → Copy) : s.changeCopy n i f = s := by
  simp [State.changeCopy, h]

/-- The hand-over of a copy touches what the change of the copy touches. -/
theorem State.handOver_frame (s : State) (p : Port) (n i : Nat) (prec : Prec) :
    s.handOver p n i prec = { s with
      store := (s.handOver p n i prec).store, book := (s.handOver p n i prec).book
      lists := (s.handOver p n i prec).lists, status := (s.handOver p n i prec).status } := by
  unfold State.handOver State.addEntry
  rw [State.changeCopy_frame]

/-- The message entered is the only one added. -/
theorem insertMsg_perm (m : Message) (l : List Message) : (insertMsg m l).Perm (m :: l) := by
  induction l with
  | nil => exact .refl _
  | cons x xs ih =>
    unfold insertMsg
    split
    · exact .refl _
    · exact (ih.cons x).trans (.swap m x xs)

/-- A message entered under a number that no other holds keeps the rising order of the store (R3, R6). -/
theorem insertMsg_sorted {m : Message} {l : List Message} (hl : (l.map Message.number).Pairwise (· < ·))
    (hm : ∀ x ∈ l, x.number ≠ m.number) : ((insertMsg m l).map Message.number).Pairwise (· < ·) := by
  induction l with
  | nil => simp [insertMsg]
  | cons x xs ih =>
    simp only [List.map_cons, List.pairwise_cons, List.mem_map, forall_exists_index, and_imp, forall_apply_eq_imp_iff₂] at hl
    unfold insertMsg
    split
    · rename_i h
      simp only [List.map_cons, List.pairwise_cons, List.mem_cons, List.mem_map, forall_eq_or_imp, forall_exists_index, and_imp,
        forall_apply_eq_imp_iff₂]
      exact ⟨⟨h, fun y hy => lt_trans h (hl.1 y hy)⟩, hl.1, hl.2⟩
    · rename_i h
      have hx : x.number < m.number := lt_of_le_of_ne (not_lt.mp h) (hm x (by simp))
      simp only [List.map_cons, List.pairwise_cons, List.mem_map, forall_exists_index, and_imp, forall_apply_eq_imp_iff₂]
      refine ⟨fun y hy => ?_, ih hl.2 fun y hy => hm y (by simp [hy])⟩
      rcases List.mem_cons.mp ((insertMsg_perm m xs).mem_iff.mp hy) with rfl | hy
      · exact hx
      · exact hl.1 y hy

/-- The ring never holds more than its 64 keys (R40). -/
theorem joinRing_length {ring : List Key} (h : ring.length ≤ Config.ringMax) (k : Key) : (joinRing ring k).length ≤ Config.ringMax := by
  unfold joinRing
  split
  · simp only [List.length_append, List.length_drop, List.length_singleton]
    have : Config.ringMax = 64 := rfl
    omega
  · simp only [List.length_append, List.length_singleton]; omega

/-- The blocks taken from a list of free ones that is long enough are free ones, each once, and as many as asked for (R9). -/
theorem pickBlocks_spec (n seed : Nat) (free : List Nat) (hn : n ≤ free.length) (hf : free.Nodup) :
    (pickBlocks n seed free).length = n ∧ (pickBlocks n seed free).Nodup ∧ ∀ b ∈ pickBlocks n seed free, b ∈ free := by
  induction n generalizing seed free with
  | zero => simp [pickBlocks]
  | succ n ih =>
    have hlt : Config.freeBlock seed % free.length < free.length := Nat.mod_lt _ (by omega)
    obtain ⟨hlen, hnd, hmem⟩ := ih (seed + 1) (free.eraseIdx (Config.freeBlock seed % free.length))
      (by rw [List.length_eraseIdx_of_lt hlt]; omega) (hf.sublist (List.eraseIdx_sublist _ _))
    have hat : free.getD (Config.freeBlock seed % free.length) 0 = free[Config.freeBlock seed % free.length] := by
      simp [List.getD_eq_getElem?_getD, List.getElem?_eq_getElem hlt]
    refine ⟨by simp [pickBlocks, hlen], ?_, ?_⟩
    · simp only [pickBlocks, List.nodup_cons, hat]
      refine ⟨fun hb => ?_, hnd⟩
      have := hmem _ hb
      rw [← hf.erase_getElem _ hlt] at this
      exact hf.not_mem_erase this
    · intro b hb
      simp only [pickBlocks, List.mem_cons, hat] at hb
      rcases hb with rfl | hb
      · exact List.getElem_mem _
      · exact List.mem_of_mem_eraseIdx (hmem b hb)

/-! ### The Station Book and the lists -/

/-- An entry changed in place is found changed, and every other as it was. -/
theorem State.station_updStation (s : State) (e k : Nat) (f : Station → Station) :
    (s.updStation e f).station k = if k = e then (s.station e).map f else s.station k := by
  unfold State.station State.updStation
  by_cases h : k = e
  · subst h
    simp only [List.getElem?_modify, if_true]
    cases s.book[k]? <;> rfl
  · have h' : ¬ e = k := fun x => h x.symm
    simp [h, h']

/-- What the decays that have fallen due do to an entry: its due grades fall by 1, touched now, and nothing else changes (R58). -/
theorem State.station_decayAll (s : State) (period e : Nat) :
    (s.decayAll period).station e = (s.station e).map fun st => { st with
      grades := .build fun p =>
        if s.isChannel p && decayDue s.clock period (st.grades.get p) then decayed s.clock (st.grades.get p) else st.grades.get p } := by
  simp only [State.station, State.decayAll, List.getElem?_map]
  cases s.book[e]? <;> rfl

/-- An entry joins the end of its own port's list alone. -/
theorem State.lists_addEntry (s : State) (p q : Port) (e : Entry) :
    (s.addEntry p e).lists.get q = if q = p then s.lists.get p ++ [e] else s.lists.get q := by
  by_cases h : q = p
  · subst h; simp [State.addEntry]
  · simp [State.addEntry, h, PerPort.get_set_ne _ _ h]

/-- An entry leaves its own port's list alone, and the entries behind it close up. -/
theorem State.lists_dropEntry (s : State) (p q : Port) (n i : Nat) :
    (s.dropEntry p n i).lists.get q = if q = p then (s.lists.get p).filter (fun e => !e.names n i) else s.lists.get q := by
  by_cases h : q = p
  · subst h; simp [State.dropEntry]
  · simp [State.dropEntry, h, PerPort.get_set_ne _ _ h]

end Sys2Proof.Machine
end

