-- ==== Sys2Proof/Laws/PerInstr.lean ====
section
/-! SUPPORT. One law of every command as syntax: the frame of a well-formed request has a request's kind and a field length that the kind
allows, so that it passes the first and the third test of decoding (R163, R184). An event of the part's own has no frame. -/
namespace Sys2Proof.Laws

/-- The frame of a command, if it has one, passes the tests of kind and length when the command is well formed. -/
def FrameKind.Statement (i : Instr) : Prop :=
  ∀ p f, i.toFrame = some (p, f) → i.wellFormed = true → isRequestKind f.kind = true ∧ fieldLengthOk f.kind f.fields.length = true

/-- The form in which a request's frame is tested. -/
theorem FrameKind.of_frame {i : Instr} {p : Port} {f : Frame} (h : i.toFrame = some (p, f))
    (hk : isRequestKind f.kind = true) (hl : i.wellFormed = true → fieldLengthOk f.kind f.fields.length = true) :
    FrameKind.Statement i := by
  intro q g hg hw
  rw [h] at hg
  obtain ⟨rfl, rfl⟩ := Prod.mk.inj (Option.some.inj hg)
  exact ⟨hk, hl hw⟩

/-- A command with no frame. -/
theorem FrameKind.of_event {i : Instr} (h : i.toFrame = none) : FrameKind.Statement i := by
  intro p f hf
  rw [h] at hf
  cases hf

/-- The addressees of a LODGE OPEN take seven bytes each. -/
theorem length_flatten_calls {cs : List (List Byte)} (h : cs.all callField = true) : cs.flatten.length = 7 * cs.length := by
  induction cs with
  | nil => rfl
  | cons c cs ih =>
    simp only [List.all_cons, Bool.and_eq_true, callField, beq_iff_eq] at h
    simp only [List.flatten_cons, List.length_append, List.length_cons, h.1, ih (by simpa [callField] using h.2)]
    omega

theorem FrameKind.status (p : Port) (tag : Byte) :
    FrameKind.Statement (.status p tag) := FrameKind.of_frame rfl rfl fun _ => rfl
theorem FrameKind.clearEvents (p : Port) (tag : Byte) (set : Half) :
    FrameKind.Statement (.clearEvents p tag set) := FrameKind.of_frame rfl rfl fun _ => rfl
theorem FrameKind.setEventMask (p : Port) (tag : Byte) (set : Half) :
    FrameKind.Statement (.setEventMask p tag set) := FrameKind.of_frame rfl rfl fun _ => rfl
theorem FrameKind.readHeader (p : Port) (tag : Byte) (number : Half) (first : Byte) :
    FrameKind.Statement (.readHeader p tag number first) := FrameKind.of_frame rfl rfl fun _ => rfl
theorem FrameKind.readBody (p : Port) (tag : Byte) (number offset : Half) :
    FrameKind.Statement (.readBody p tag number offset) := FrameKind.of_frame rfl rfl fun _ => rfl
theorem FrameKind.listTraffic (p : Port) (tag : Byte) (after : Half) (states precs copies : Byte) :
    FrameKind.Statement (.listTraffic p tag after states precs copies) := FrameKind.of_frame rfl rfl fun _ => rfl
theorem FrameKind.readStation (p : Port) (tag : Byte) (entry : Byte) :
    FrameKind.Statement (.readStation p tag entry) := FrameKind.of_frame rfl rfl fun _ => rfl
theorem FrameKind.findStation (p : Port) (tag : Byte) (call : List Byte) :
    FrameKind.Statement (.findStation p tag call) := FrameKind.of_frame rfl rfl fun h => by
  simp_all [Instr.wellFormed, callField, fieldLengthOk]
theorem FrameKind.readCounters (p : Port) (tag : Byte) :
    FrameKind.Statement (.readCounters p tag) := FrameKind.of_frame rfl rfl fun _ => rfl
theorem FrameKind.rankQuery (p : Port) (tag : Byte) (number : Half) (index port : Byte) :
    FrameKind.Statement (.rankQuery p tag number index port) := FrameKind.of_frame rfl rfl fun _ => rfl
theorem FrameKind.readHandOffList (p : Port) (tag : Byte) (port : Byte) :
    FrameKind.Statement (.readHandOffList p tag port) := FrameKind.of_frame rfl rfl fun _ => rfl
theorem FrameKind.lodgeOpen (p : Port) (tag : Byte) (prec : Byte) (origin : List Byte) (serial check : Half) (addressees : List (List Byte)) :
    FrameKind.Statement (.lodgeOpen p tag prec origin serial check addressees) := by
  refine FrameKind.of_frame rfl rfl fun h => ?_
  simp only [Instr.wellFormed, callField, Bool.and_eq_true, beq_iff_eq, decide_eq_true_eq] at h
  obtain ⟨⟨⟨ho, ha⟩, h1⟩, h8⟩ := h
  have hl : addressees.flatten.length = 7 * addressees.length := length_flatten_calls ha
  have hk : ∀ n, fieldLengthOk 0x10 n = (19 ≤ n && n ≤ 68 && (n - 12) % 7 == 0) := fun _ => rfl
  simp only [hk, List.length_cons, List.length_append, List.length_nil, ho, hl, Bool.and_eq_true, decide_eq_true_eq, beq_iff_eq]
  omega
theorem FrameKind.lodgePart (p : Port) (tag : Byte) (body : List Byte) :
    FrameKind.Statement (.lodgePart p tag body) := FrameKind.of_frame rfl rfl fun h => by simpa [Instr.wellFormed, fieldLengthOk] using h
theorem FrameKind.lodgeClose (p : Port) (tag : Byte) :
    FrameKind.Statement (.lodgeClose p tag) := FrameKind.of_frame rfl rfl fun _ => rfl
theorem FrameKind.lodgeDrop (p : Port) (tag : Byte) :
    FrameKind.Statement (.lodgeDrop p tag) := FrameKind.of_frame rfl rfl fun _ => rfl
theorem FrameKind.report (p : Port) (tag : Byte) (number : Half) (index outcome : Byte) (relay : List Byte) :
    FrameKind.Statement (.report p tag number index outcome relay) := FrameKind.of_frame rfl rfl fun h => by
  simp_all [Instr.wellFormed, callField, fieldLengthOk]
theorem FrameKind.extend (p : Port) (tag : Byte) (number : Half) (index : Byte) :
    FrameKind.Statement (.extend p tag number index) := FrameKind.of_frame rfl rfl fun _ => rfl
theorem FrameKind.channelOpen (p : Port) (tag : Byte) :
    FrameKind.Statement (.channelOpen p tag) := FrameKind.of_frame rfl rfl fun _ => rfl
theorem FrameKind.channelClose (p : Port) (tag : Byte) :
    FrameKind.Statement (.channelClose p tag) := FrameKind.of_frame rfl rfl fun _ => rfl
theorem FrameKind.ask (p : Port) (tag : Byte) (count : Byte) (filter : List Byte) :
    FrameKind.Statement (.ask p tag count filter) := FrameKind.of_frame rfl rfl fun h => by
  simp_all [Instr.wellFormed, callField, fieldLengthOk]
theorem FrameKind.withdrawAsk (p : Port) (tag : Byte) :
    FrameKind.Statement (.withdrawAsk p tag) := FrameKind.of_frame rfl rfl fun _ => rfl
theorem FrameKind.heard (p : Port) (tag : Byte) (call : List Byte) (grade : Byte) :
    FrameKind.Statement (.heard p tag call grade) := FrameKind.of_frame rfl rfl fun h => by
  simp_all [Instr.wellFormed, callField, fieldLengthOk]
theorem FrameKind.takeLocal (p : Port) (tag : Byte) :
    FrameKind.Statement (.takeLocal p tag) := FrameKind.of_frame rfl rfl fun _ => rfl
theorem FrameKind.setOwnCall (p : Port) (tag : Byte) (call : List Byte) :
    FrameKind.Statement (.setOwnCall p tag call) := FrameKind.of_frame rfl rfl fun h => by
  simp_all [Instr.wellFormed, callField, fieldLengthOk]
theorem FrameKind.setStation (p : Port) (tag : Byte) (call : List Byte) (ports : Byte) (grades : PerPort Byte) (clear : Byte) :
    FrameKind.Statement (.setStation p tag call ports grades clear) := FrameKind.of_frame rfl rfl fun h => by
  simp_all [Instr.wellFormed, callField, fieldLengthOk]
theorem FrameKind.removeStation (p : Port) (tag : Byte) (call : List Byte) :
    FrameKind.Statement (.removeStation p tag call) := FrameKind.of_frame rfl rfl fun h => by
  simp_all [Instr.wellFormed, callField, fieldLengthOk]
theorem FrameKind.setRanking (p : Port) (tag : Byte) (life priority welfare routine penalty fit : Byte) :
    FrameKind.Statement (.setRanking p tag life priority welfare routine penalty fit) := FrameKind.of_frame rfl rfl fun _ => rfl
theorem FrameKind.setDispatch (p : Port) (tag : Byte) (tiers runs : PerPort Byte) (window : Half) (decay : Byte) :
    FrameKind.Statement (.setDispatch p tag tiers runs window decay) := FrameKind.of_frame rfl rfl fun _ => rfl
theorem FrameKind.setHandOff (p : Port) (tag : Byte) (tLife tPriority tWelfare tRoutine : Half) (lLife lPriority lWelfare lRoutine lapse : Byte) :
    FrameKind.Statement (.setHandOff p tag tLife tPriority tWelfare tRoutine lLife lPriority lWelfare lRoutine lapse) := FrameKind.of_frame rfl rfl fun _ => rfl
theorem FrameKind.setChannelAdmin (p : Port) (tag : Byte) (port mode : Byte) :
    FrameKind.Statement (.setChannelAdmin p tag port mode) := FrameKind.of_frame rfl rfl fun _ => rfl
theorem FrameKind.restoreChannel (p : Port) (tag : Byte) (port : Byte) :
    FrameKind.Statement (.restoreChannel p tag port) := FrameKind.of_frame rfl rfl fun _ => rfl
theorem FrameKind.cancel (p : Port) (tag : Byte) (number : Half) (selector : Byte) :
    FrameKind.Statement (.cancel p tag number selector) := FrameKind.of_frame rfl rfl fun _ => rfl
theorem FrameKind.pin (p : Port) (tag : Byte) (number : Half) (index target : Byte) :
    FrameKind.Statement (.pin p tag number index target) := FrameKind.of_frame rfl rfl fun _ => rfl
theorem FrameKind.requeue (p : Port) (tag : Byte) (number : Half) (selector : Byte) :
    FrameKind.Statement (.requeue p tag number selector) := FrameKind.of_frame rfl rfl fun _ => rfl
theorem FrameKind.purge (p : Port) (tag : Byte) (number : Half) :
    FrameKind.Statement (.purge p tag number) := FrameKind.of_frame rfl rfl fun _ => rfl
theorem FrameKind.setStore (p : Port) (tag : Byte) (auto : Byte) (timeout : Half) :
    FrameKind.Statement (.setStore p tag auto timeout) := FrameKind.of_frame rfl rfl fun _ => rfl
theorem FrameKind.clearStore (p : Port) (tag : Byte) :
    FrameKind.Statement (.clearStore p tag) := FrameKind.of_frame rfl rfl fun _ => rfl
theorem FrameKind.clearCounters (p : Port) (tag : Byte) :
    FrameKind.Statement (.clearCounters p tag) := FrameKind.of_frame rfl rfl fun _ => rfl
theorem FrameKind.setAnnunciator (p : Port) (tag : Byte) (an0 an1 an2 an3 : Byte) :
    FrameKind.Statement (.setAnnunciator p tag an0 an1 an2 an3) := FrameKind.of_frame rfl rfl fun _ => rfl
theorem FrameKind.grant : FrameKind.Statement (.grant) := FrameKind.of_event rfl
theorem FrameKind.storeClockTick : FrameKind.Statement (.storeClockTick) := FrameKind.of_event rfl
theorem FrameKind.openTimeoutExpiry (p : Port) :
    FrameKind.Statement (.openTimeoutExpiry p) := FrameKind.of_event rfl
theorem FrameKind.deadlineExpiry (p : Port) (number index : Nat) :
    FrameKind.Statement (.deadlineExpiry p number index) := FrameKind.of_event rfl
theorem FrameKind.holdEnd (number index : Nat) :
    FrameKind.Statement (.holdEnd number index) := FrameKind.of_event rfl
theorem FrameKind.decay (entry : Nat) (port : Port) :
    FrameKind.Statement (.decay entry port) := FrameKind.of_event rfl
theorem FrameKind.receiveCharacter (p : Port) (b : Byte) :
    FrameKind.Statement (.receiveCharacter p b) := FrameKind.of_event rfl
theorem FrameKind.framingError (p : Port) :
    FrameKind.Statement (.framingError p) := FrameKind.of_event rfl
theorem FrameKind.lineBreak (p : Port) :
    FrameKind.Statement (.lineBreak p) := FrameKind.of_event rfl
theorem FrameKind.frameGapExpiry (p : Port) :
    FrameKind.Statement (.frameGapExpiry p) := FrameKind.of_event rfl
theorem FrameKind.replySent (p : Port) :
    FrameKind.Statement (.replySent p) := FrameKind.of_event rfl
theorem FrameKind.mainPowerApplied (straps : Straps) :
    FrameKind.Statement (.mainPowerApplied straps) := FrameKind.of_event rfl
theorem FrameKind.resetAsserted (straps : Straps) :
    FrameKind.Statement (.resetAsserted straps) := FrameKind.of_event rfl
theorem FrameKind.mainPowerLost : FrameKind.Statement (.mainPowerLost) := FrameKind.of_event rfl
theorem FrameKind.backupSupplyLost : FrameKind.Statement (.backupSupplyLost) := FrameKind.of_event rfl
theorem FrameKind.startUpEnd (resetHeld : Bool) :
    FrameKind.Statement (.startUpEnd resetHeld) := FrameKind.of_event rfl
theorem FrameKind.lineReturnsToMark (p : Port) :
    FrameKind.Statement (.lineReturnsToMark p) := FrameKind.of_event rfl

end Sys2Proof.Laws
end

