-- ==== Sys2Proof/Tests/Slice0.lean ====
section
/-! SUPPORT. Tests: ill-formed commands that WellFormed refuses, frames written out from R184 and R185, single steps from the manual's worked
cases, and for each statement with hypotheses a concrete state and operands that meet them. -/
namespace Sys2Proof.Tests

open Sys2Proof Sys2Proof.Machine

/-! ### Helpers -/

/-- The next state of a step, or the reset state where there is none. -/
def after : Host.Outcome State Fault Refusal → State
  | .next t => t
  | .fault _ | .refused _ => State.reset

def bytes (ns : List Nat) : List Byte := ns.map (BitVec.ofNat 8)

/-- RLX4, KD0QF, WX3BN, SHLT4, DEPOT2 and TC5HV as they stand in call-sign fields. -/
def rlx4 : Call := bytes [0x52, 0x4C, 0x58, 0x34, 0x20, 0x20, 0x20]
def kd0qf : Call := bytes [0x4B, 0x44, 0x30, 0x51, 0x46, 0x20, 0x20]
def wx3bn : Call := bytes [0x57, 0x58, 0x33, 0x42, 0x4E, 0x20, 0x20]
def shlt4 : Call := bytes [0x53, 0x48, 0x4C, 0x54, 0x34, 0x20, 0x20]
def depot2 : Call := bytes [0x44, 0x45, 0x50, 0x4F, 0x54, 0x32, 0x20]
def tc5hv : Call := bytes [0x54, 0x43, 0x35, 0x48, 0x56, 0x20, 0x20]

def stationOf (c : Call) (k : StationKind) (g3 g4 g5 : Nat) (a : Option Affinity) (waiting : Nat) : Station :=
  { call := c, kind := k, created := 100, grades := ⟨⟨0, 0⟩, ⟨0, 0⟩, ⟨0, 0⟩, ⟨g3, 9000⟩, ⟨g4, 9000⟩, ⟨g5, 9000⟩⟩, affinity := a, waiting }

def copyOf (station : Nat) (x : CopyState) (attempts : Nat) : Copy :=
  { station, state := some x, attempts, uncertain := false, pinned := none }

def msgOf (number : Nat) (phase : Phase) (prec : Prec) (at_ : Port) (copies : List Copy) : Message :=
  { number, phase, prec, origin := tc5hv, serial := 1000 + number, wordCheck := 0, lodgedAt := at_, body := bytes [0x41, 0x42, 0x20, 0x43]
    chain := [number], openStamp := 8000, copies }

/-- A part with traffic in every state, at store clock 10,000. -/
def sample : State :=
  { State.reset with
    clock := 10000
    store :=
      [ msgOf 1 (.filed ⟨2, false, 9000, 1⟩) .welfare .p2
          [copyOf 1 .waiting 0, copyOf 2 (.taken .p4) 4, copyOf 0 .waiting 0, copyOf 1 .failed 5, copyOf 2 (.withdrawing .p4) 1,
            copyOf 1 (.delivered .p3 9500 false) 0, copyOf 2 (.heldFor .p4 10000) 0, copyOf 0 (.taken .p2) 0],
        msgOf 2 .opened .routine .p2 [{ copyOf 1 .waiting 0 with state := none }],
        msgOf 3 (.filed ⟨2, false, 9400, 2⟩) .life .p4 [copyOf 2 .waiting 1],
        msgOf 4 (.closed ⟨2, false, 9300, 3⟩ 9600) .priority .p4 [copyOf 1 .cancelled 0] ]
    lastNumber := 4
    filingCount := 3
    dupTable := [⟨tc5hv, 1001⟩, ⟨tc5hv, 1002⟩, ⟨tc5hv, 1003⟩, ⟨tc5hv, 1004⟩]
    ring := [⟨kd0qf, 7⟩]
    book := some (stationOf rlx4 .set 0 0 0 none 2) :: some (stationOf kd0qf .set 2 2 0 none 1)
      :: some (stationOf wx3bn .auto 0 3 1 (some ⟨.p4, 8200⟩) 4) :: some (stationOf depot2 .auto 1 0 0 none 0) :: List.replicate 60 none
    lodges := ⟨none, none, some ⟨2, 9990⟩, none, none, none⟩
    lists := ⟨[], [], [⟨1, 7, 10500, 0, false⟩], [], [⟨1, 1, 10000, 0, false⟩, ⟨1, 4, 11000, 2, true⟩], []⟩
    channels := ⟨⟨.closed, 0⟩, ⟨.closed, 0⟩, ⟨.closed, 0⟩, ⟨.ready, 0⟩, ⟨.asking 2 none, 1⟩, ⟨.lapsed, 3⟩⟩
    streak := some ⟨.p4, 1, 1⟩ }

/-- The same with message 3 purged, so that no LIFE copy waits. -/
def noLife : State := { sample with store := sample.store.filter fun m => m.number != 3, dupTable := sample.dupTable.erase ⟨tc5hv, 1003⟩ }

/-- The sample with a Port Unit of one port as given. -/
def withUnit (p : Port) (u : PortUnit) : State := { sample with units := sample.units.set p u }

def replying (held : Option Frame) : PortUnit :=
  { receiver := .hunting, service := some (.replying ⟨0x01, 7, []⟩ (replyFrame ⟨0x01, 7, []⟩ .notRole []) 3), held, lastFault := .none_ }

def receiving (r : Receiver) : PortUnit := { receiver := r, service := none, held := none, lastFault := .none_ }

/-- The result code of the reply in progress at a port. -/
def codeAt (s : State) (p : Port) : Option Byte :=
  match s.serviceOf p with
  | some (.replying _ reply _) => reply[4]?
  | _ => none

/-- The fields of the reply in progress at a port. -/
def fieldsAt (s : State) (p : Port) : List Byte :=
  match s.serviceOf p with
  | some (.replying _ reply _) => reply.drop 5
  | _ => []

/-! ### WellFormed: one ill-formed command for each check -/

theorem test_wellFormed_call : (Instr.findStation .p0 1 (bytes [0x41])).wellFormed = false := by decide
theorem test_wellFormed_heard : (Instr.heard .p4 1 [] 2).wellFormed = false := by decide
theorem test_wellFormed_ownCall : (Instr.setOwnCall .p0 1 (List.replicate 8 0x41)).wellFormed = false := by decide
theorem test_wellFormed_setStation : (Instr.setStation .p0 1 [] 0 (.same 0) 0).wellFormed = false := by decide
theorem test_wellFormed_removeStation : (Instr.removeStation .p0 1 []).wellFormed = false := by decide
theorem test_wellFormed_origin : (Instr.lodgeOpen .p2 1 0 [] 0 0 [kd0qf]).wellFormed = false := by decide
theorem test_wellFormed_addressee : (Instr.lodgeOpen .p2 1 0 blankCall 0 0 [kd0qf, []]).wellFormed = false := by decide
theorem test_wellFormed_noAddressee : (Instr.lodgeOpen .p2 1 0 blankCall 0 0 []).wellFormed = false := by decide
theorem test_wellFormed_nineAddressees : (Instr.lodgeOpen .p2 1 0 blankCall 0 0 (List.replicate 9 kd0qf)).wellFormed = false := by decide
theorem test_wellFormed_emptyPart : (Instr.lodgePart .p2 1 []).wellFormed = false := by decide
theorem test_wellFormed_longPart : (Instr.lodgePart .p2 1 (List.replicate 49 0x41)).wellFormed = false := by decide
theorem test_wellFormed_relay : (Instr.report .p4 1 1 0 1 []).wellFormed = false := by decide
theorem test_wellFormed_filter : (Instr.ask .p4 1 1 []).wellFormed = false := by decide
theorem test_wellFormed_numberZero : (Instr.deadlineExpiry .p4 0 0).wellFormed = false := by decide
theorem test_wellFormed_numberHigh : (Instr.holdEnd 10000 0).wellFormed = false := by decide
theorem test_wellFormed_index : (Instr.deadlineExpiry .p4 1 8).wellFormed = false := by decide
theorem test_wellFormed_entry : (Instr.decay 64 .p4).wellFormed = false := by decide

/-! ### Frames, written out from the tables of R184 and R185 -/

theorem test_frame_clearEvents : decodeFrame .p0 ⟨0x02, 9, bytes [0x0F, 0xEF]⟩ = some (.clearEvents .p0 9 0x0FEF) := by decide
theorem test_frame_readBody : decodeFrame .p4 ⟨0x05, 9, bytes [0x27, 0x0F, 0x00, 0x60]⟩ = some (.readBody .p4 9 9999 96) := by decide
theorem test_frame_lodgeOpen :
    decodeFrame .p2 ⟨0x10, 9, bytes [0x01] ++ kd0qf ++ bytes [0x11, 0x3A, 0x00, 0x07] ++ shlt4 ++ depot2⟩
      = some (.lodgeOpen .p2 9 1 kd0qf 4410 7 [shlt4, depot2]) := by decide
theorem test_frame_report :
    decodeFrame .p4 ⟨0x18, 0x2C, bytes [0x03, 0xB6, 0x00, 0x01] ++ tc5hv⟩ = some (.report .p4 0x2C 950 0 1 tc5hv) := by decide
theorem test_frame_ask : decodeFrame .p4 ⟨0x22, 9, bytes [0x03] ++ kd0qf⟩ = some (.ask .p4 9 3 kd0qf) := by decide
theorem test_frame_takeLocal : decodeFrame .p2 ⟨0x28, 9, []⟩ = some (.takeLocal .p2 9) := by decide
theorem test_frame_setStation :
    decodeFrame .p0 ⟨0x31, 9, kd0qf ++ bytes [0x38, 0, 0, 0, 1, 2, 3, 1]⟩
      = some (.setStation .p0 9 kd0qf 0x38 ⟨0, 0, 0, 1, 2, 3⟩ 1) := by decide
theorem test_frame_setHandOff :
    decodeFrame .p0 ⟨0x35, 9, bytes [0x01, 0x2C, 0x02, 0x58, 0x04, 0xB0, 0x07, 0x08, 15, 8, 5, 3, 3]⟩
      = some (.setHandOff .p0 9 300 600 1200 1800 15 8 5 3 3) := by decide
theorem test_frame_cancelAll : decodeFrame .p0 ⟨0x38, 9, bytes [0x03, 0xB6, 0xFF]⟩ = some (.cancel .p0 9 950 0xFF) := by decide
theorem test_frame_setAnnunciator : decodeFrame .p0 ⟨0x3F, 9, bytes [1, 2, 3, 4]⟩ = some (.setAnnunciator .p0 9 1 2 3 4) := by decide
theorem test_frame_wrongLength : decodeFrame .p0 ⟨0x01, 9, bytes [0]⟩ = none := by decide
theorem test_line_status : onLine ⟨0x01, 0x24, []⟩ = bytes [0x5A, 0x02, 0x01, 0x24] := by decide
theorem test_reply_status : replyFrame ⟨0x01, 0x24, []⟩ .notRole [] = bytes [0x5A, 0x03, 0x81, 0x24, 0x03] := by decide

/-! ### Worked cases of the manual -/

/-- R25: the list of the rule's own example. -/
theorem test_collapse : collapse [shlt4, depot2, shlt4, rlx4, depot2] = [shlt4, depot2, rlx4] := by decide
/-- R45: letters fold, a short or stroked text is no call sign. -/
theorem test_callOf_folds : callOf (bytes [0x68, 0x6D, 0x37, 0x72, 0x61, 0x20, 0x20]) = some (bytes [0x48, 0x4D, 0x37, 0x52, 0x41, 0x20, 0x20]) := by
  decide
theorem test_callOf_short : callOf (bytes [0x41, 0x42, 0x20, 0x20, 0x20, 0x20, 0x20]) = none := by decide
theorem test_callOf_stroke : callOf (bytes [0x2F, 0x41, 0x42, 0x43, 0x20, 0x20, 0x20]) = none := by decide
/-- Section 2.9: the 29 bytes of the worked body hold six words and need one block; 33 bytes need two. -/
theorem test_wordCount : wordCount (bytes [0x4E, 0x45, 0x45, 0x44, 0x20, 0x34, 0x30, 0x20, 0x43, 0x4F, 0x54, 0x53, 0x20, 0x41, 0x4E, 0x44, 0x0D, 0x0A,
    0x32, 0x30, 0x20, 0x42, 0x4C, 0x41, 0x4E, 0x4B, 0x45, 0x54, 0x53]) = 6 := by decide
theorem test_blocksFor : blocksFor 0 = 0 ∧ blocksFor 29 = 1 ∧ blocksFor 32 = 1 ∧ blocksFor 33 = 2 ∧ blocksFor 2048 = 64 := by decide

/-- A part at a clock with one copy of a precedence, its attempts and its station's grade at P4, filed some seconds ago. -/
def ranked (prec : Prec) (seconds attempts grade : Nat) : Terms :=
  let s := { State.reset with
    clock := 100000, book := coldBook.set 1 (some (stationOf kd0qf .set 0 grade 0 none 1)) }
  let m := msgOf 1 (.filed ⟨1, false, 100000 - seconds, 1⟩) prec .p0 []
  s.rankTerms m (copyOf 1 .waiting attempts) .p4

/-- Section 5.6, the four single copies. -/
theorem test_rank_welfare : (ranked .welfare 2270 2 2).rank = 1034 ∧ (ranked .welfare 2270 2 2).clamped = false
    ∧ (ranked .welfare 2280 2 2).rank = 1036 := by decide
theorem test_rank_priority : (ranked .priority 720 5 1).raw = -132 ∧ (ranked .priority 720 5 1).clamped = true
    ∧ (ranked .priority 720 5 1).rank = 2000 ∧ (ranked .priority 2700 5 1).clamped = false ∧ (ranked .priority 2760 5 1).rank = 2004 := by decide
theorem test_rank_life : (ranked .life 30000 0 3).raw = 4060 ∧ (ranked .life 30000 0 3).rank = 3999 := by decide
theorem test_rank_routine : (ranked .routine 87000 0 3).raw = 1059 ∧ (ranked .routine 87000 0 3).rank = 999 := by decide

/-- R104: the rule's own example of a rotation order. -/
theorem test_rotationOrder :
    ({ State.reset with
        roles := ⟨.console, .channel, .channel, .channel, .off, .channel⟩
        dispatch := { coldDispatch with tiers := ⟨.a, .a, .b, .a, .a, .b⟩ }
        firstPtr := some 3, tierBPtr := some .p2 } : State).rotationOrder = [.p5, .p2, .p1, .p3] := by decide

/-- Section 6.9, at 60,130: index 0 goes to P4, the channel of the higher grade; the pointers and the streak stay. -/
def afternoon : State :=
  { State.reset with
    clock := 60130
    dispatch := { coldDispatch with tiers := ⟨.a, .a, .a, .a, .a, .b⟩ }
    book := coldBook.set 31 (some (stationOf depot2 .set 1 0 2 none 1)) |>.set 39 (some (stationOf kd0qf .set 0 2 1 none 1))
    store := [msgOf 905 (.filed ⟨2, false, 60130, 5⟩) .life .p2 [copyOf 39 .waiting 0, copyOf 31 .waiting 0]]
    channels := ⟨⟨.closed, 0⟩, ⟨.closed, 0⟩, ⟨.closed, 0⟩, ⟨.ready, 0⟩, ⟨.asking 2 none, 0⟩, ⟨.asking 1 none, 0⟩⟩
    firstPtr := some 4, tierBPtr := some .p5, streak := some ⟨.p4, 12, 1⟩ }

theorem test_grant_life : (after (exec .grant afternoon)).lists.get .p4 = [⟨905, 0, 60430, 0, false⟩]
    ∧ (after (exec .grant afternoon)).firstPtr = some 4 ∧ (after (exec .grant afternoon)).streak = some ⟨.p4, 12, 1⟩ := by decide +kernel

/-- R7: the number after 9,999 is 1, and a number in the store is passed over. -/
theorem test_localNumber : ({ sample with lastNumber := 9999 } : State).nextNumber = 5 := by decide +kernel

/-- R125: the count that stands is the room in the list; R148: the end of a body. -/
theorem test_ask_room : ((after (exec (.ask .p4 1 9 blankCall) noLife)).channels.get .p4).state = .asking 2 none := by decide +kernel
theorem test_readBody_end : fieldsAt (after (exec (.readBody .p0 1 1 4) sample)) .p0
    = bytes [0, 0, 0x27, 0x10, 0, 4, 0, 4, 0, 0, 0, 1, 1] := by decide +kernel

/-- R142: a full list; R132: a report of a message that is OPEN; R14: a purge with a copy in a list. -/
theorem test_takeLocal_takes : (after (exec (.takeLocal .p0 1) sample)).lists.get .p0 = [⟨1, 2, 11200, 0, false⟩] := by decide +kernel
theorem test_report_open : codeAt (after (exec (.report .p4 1 2 0 0 blankCall) sample)) .p4 = some 0x04 := by decide +kernel
theorem test_purge_inUse : codeAt (after (exec (.purge .p0 1 1) sample)) .p0 = some 0x09 := by decide +kernel

/-- R131, R137: the expiry of a TAKEN copy at its limit counts toward the lapse; R69: 4 attempts are below WELFARE's 5. -/
theorem test_expiry : (after (exec (.deadlineExpiry .p4 1 1) sample)).copyAt 1 1 = some { copyOf 2 .waiting 4 with uncertain := true }
    ∧ ((after (exec (.deadlineExpiry .p4 1 1) sample)).channels.get .p4).lapseCount = 2 := by decide +kernel

/-- R178, R182: a RESET returns the three copies in flight and drops the OPEN message. -/
def rlxStraps : Straps :=
  ⟨⟨⟨true, true⟩, ⟨false, false⟩, ⟨false, true⟩, ⟨true, false⟩, ⟨true, false⟩, ⟨true, false⟩⟩, ⟨false, false⟩⟩

theorem test_reset_recovers : (after (exec (.resetAsserted rlxStraps) sample)).recovered = 3
    ∧ (after (exec (.resetAsserted rlxStraps) sample)).store.length = 3
    ∧ (after (exec (.resetAsserted rlxStraps) sample)).hears .p0 = false := by decide +kernel

/-- R156, R164: a reply of five bytes goes on to its last, whose end is REPLY_SENT. -/
theorem test_lineSends : (after (step (withUnit .p4 (replying none)))).serviceOf .p4
      = some (.replying ⟨0x01, 7, []⟩ (replyFrame ⟨0x01, 7, []⟩ .notRole []) 4)
    ∧ (after (step (after (step (withUnit .p4 (replying none)))))).serviceOf .p4
      = some (.replying ⟨0x01, 7, []⟩ (replyFrame ⟨0x01, 7, []⟩ .notRole []) 4) := by decide +kernel

/-- R58, R179: a grade of 2 touched at 9,000 falls as start-up ends at 10,800, half an hour later. -/
theorem test_startUpEnd_decays :
    ((after (exec (.startUpEnd false) { sample with power := .startUp true false, clock := 10800 })).station 1).map
      (fun st => st.grades.get .p4) = some ⟨1, 10800⟩ := by decide +kernel

/-- R1: the clock holds at its maximum. -/
theorem test_tick : (after (exec .storeClockTick { State.reset with clock := 4294967295 })).clock = 4294967295
    ∧ (after (exec .storeClockTick State.reset)).clock = 1 := by decide +kernel

/-! ### The hypotheses of the statements are met -/

theorem witness_StepRunsTheFrontCommand :
    (∃ c rest, ({ sample with pending := [.grant, .grant] } : State).pending = c :: rest) ∧ (withUnit .p4 (replying none)).pending = []
      ∧ (withUnit .p4 (replying none)).hears .p4 = true ∧ 3 + 1 < (replyFrame ⟨0x01, 7, []⟩ .notRole []).length
      ∧ (replyFrame ⟨0x01, 7, []⟩ .notRole []).length ≤ 4 + 1 ∧ sample.hears .p1 = false := ⟨⟨_, _, rfl⟩, rfl, by decide +kernel, by decide, by decide, by decide +kernel⟩

theorem witness_ReceivingAFrameIsItsCommand :
    (Instr.status .p0 7).wellFormed = true ∧ (Instr.status .p0 7).toFrame = some (.p0, ⟨0x01, 7, []⟩) ∧ sample.finish.hears .p0 = true
      ∧ (sample.finish.units.get .p0).receiver = .hunting ∧ sample.finish.finish = sample.finish := by decide +kernel

theorem witness_FramesAreHeldOverrunAndTaken :
    (Instr.status .p1 7).toFrame = some (.p1, ⟨0x01, 7, []⟩) ∧ sample.hears .p1 = false
      ∧ (Instr.status .p4 7).toFrame = some (.p4, ⟨0x01, 7, []⟩) ∧ (Instr.status .p4 7).wellFormed = true ∧ sample.hears .p4 = true
      ∧ (withUnit .p4 (replying none)).serviceOf .p4 = some (.replying ⟨0x01, 7, []⟩ (replyFrame ⟨0x01, 7, []⟩ .notRole []) 3)
      ∧ ((withUnit .p4 (replying none)).units.get .p4).held = none
      ∧ ((withUnit .p4 (replying (some ⟨0x01, 7, []⟩))).units.get .p4).held = some ⟨0x01, 7, []⟩
      ∧ ((withUnit .p4 (replying (some ⟨0x0C, 7, []⟩))).units.get .p4).held = some ⟨0x0C, 7, []⟩ ∧ isRequestKind 0x0C = false
      ∧ isRequestKind 0x28 = true ∧ sample.roles.get .p4 ∉ sendersOf 0x28
      ∧ isRequestKind 0x01 = true ∧ sample.roles.get .p4 ∈ sendersOf 0x01 ∧ fieldLengthOk 0x01 1 = false := by decide +kernel

theorem witness_DecodingTestsComeInOrder :
    let s := fun (p : Port) (r : Receiver) => withUnit p (receiving r)
    (s .p4 (.inFrame (some 2) [0x0C])).freeAt .p4 = true
      ∧ ((s .p4 (.inFrame (some 2) [0x0C])).units.get .p4).receiver = .inFrame (some 2) [0x0C] ∧ 2 = [(0x0C : Byte)].length + 1
      ∧ [(0x0C : Byte)] ++ [7] = 0x0C :: 7 :: [] ∧ isRequestKind 0x0C = false
      ∧ isRequestKind 0x28 = true ∧ (s .p4 (.inFrame (some 2) [0x28])).freeAt .p4 = true ∧ sample.roles.get .p4 ∉ sendersOf 0x28
      ∧ isRequestKind 0x20 = true ∧ (s .p2 (.inFrame (some 2) [0x20])).freeAt .p2 = true ∧ sample.roles.get .p2 ∉ sendersOf 0x20
      ∧ isRequestKind 0x30 = true ∧ sample.roles.get .p2 ∉ sendersOf 0x30
      ∧ isRequestKind 0x01 = true ∧ sample.roles.get .p4 ∈ sendersOf 0x01 ∧ fieldLengthOk 0x01 1 = false
      ∧ (s .p4 (.inFrame (some 3) [0x01, 7])).freeAt .p4 = true := by decide +kernel

theorem witness_LinkFaultsFollowTheTable :
    let s := withUnit .p4 (receiving (.inFrame none []))
    s.hears .p4 = true ∧ (s.units.get .p4).receiver = .inFrame none []
      ∧ (0 : Byte).toNat ≤ 1 ∧ (1 : Byte).toNat ≤ 1 ∧ 96 < (97 : Byte).toNat ∧ 96 < (255 : Byte).toNat := by decide +kernel

theorem witness_ReceiverMovesWithoutAFault :
    let s := fun r : Receiver => withUnit .p4 (receiving r)
    (s .hunting).hears .p4 = true ∧ ((s .hunting).units.get .p4).receiver = .hunting ∧ (0x59 : Byte) ≠ 0x5A
      ∧ ((s (.inFrame none [])).units.get .p4).receiver = .inFrame none [] ∧ 2 ≤ (2 : Byte).toNat ∧ (96 : Byte).toNat ≤ 96
      ∧ ((s (.inFrame (some 3) [0x07])).units.get .p4).receiver = .inFrame (some 3) [0x07] ∧ [(0x07 : Byte)].length + 1 < 3
      ∧ ((s (.resync false)).units.get .p4).receiver = .resync false ∧ ((s (.resync true)).units.get .p4).receiver = .resync true := by decide +kernel

theorem witness_RefusalsChangeNothing :
    ∃ t, (Instr.readStation .p0 7 64).toFrame = some (.p0, ⟨0x07, 7, [64]⟩) ∧ sample.freeAt .p0 = true
      ∧ exec (.readStation .p0 7 64) sample = .next t
      ∧ t.serviceOf .p0 = some (.replying ⟨0x07, 7, [64]⟩ (replyFrame ⟨0x07, 7, [64]⟩ .badField []) 0)
      ∧ Result.badField ≠ .ok ∧ Result.badField ≠ .lateAccepted ∧ Result.badField ≠ .duplicate := ⟨_, rfl, by decide +kernel, rfl, by decide +kernel, by decide, by decide, by decide⟩

theorem witness_HeaderReplyCarriesTwoCopies :
    sample.freeAt .p0 = true ∧ (0 : Half).toNat = 0 ∧ 9999 < (10000 : Half).toNat ∧ 7 < (8 : Byte).toNat
      ∧ 1 ≤ (1 : Half).toNat ∧ (9999 : Half).toNat ≤ 9999 ∧ (7 : Byte).toNat ≤ 7 ∧ sample.findMsg 9999 = none
      ∧ (∃ m, sample.findMsg 4 = some m ∧ m.copies.length ≤ 1)
      ∧ ∃ m, sample.findMsg 1 = some m ∧ (∃ c, m.copies[7]? = some c ∧ m.copies[8]? = none)
        ∧ ∃ c d, m.copies[0]? = some c ∧ m.copies[1]? = some d := ⟨by decide +kernel, rfl, by decide, by decide, by decide, by decide, by decide, by decide +kernel, ⟨_, rfl, by decide +kernel⟩,
    _, rfl, ⟨_, rfl, rfl⟩, _, _, rfl, rfl⟩

theorem witness_BodyIsReadInChunks :
    sample.freeAt .p0 = true ∧ sample.findMsg 9999 = none
      ∧ (∃ m, sample.findMsg 2 = some m ∧ m.phase = .opened)
      ∧ ∃ m, sample.findMsg 1 = some m ∧ m.phase ≠ .opened ∧ m.body.length < 5
        ∧ (∃ before chunk after : List Byte, m.body = before ++ chunk ++ after ∧ before.length = 4 ∧ chunk.length ≤ 48 ∧ after = [])
        ∧ ∃ before chunk after : List Byte, m.body = before ++ chunk ++ after ∧ before.length = 0 ∧ chunk.length ≤ 48 ∧ after = [] := ⟨by decide +kernel, by decide +kernel, ⟨_, rfl, rfl⟩, _, rfl, by decide, by decide, ⟨bytes [0x41, 0x42, 0x20, 0x43], [], [], rfl, rfl, by decide, rfl⟩,
    [], bytes [0x41, 0x42, 0x20, 0x43], [], rfl, rfl, by decide, rfl⟩

theorem witness_TrafficIsListedEightAtATime :
    sample.freeAt .p0 = true ∧ 9999 < (10000 : Half).toNat ∧ 8 ≤ (8 : Byte).toNat ∧ 16 ≤ (16 : Byte).toNat
      ∧ (9999 : Half).toNat ≤ 9999 ∧ (7 : Byte).toNat < 8 ∧ (15 : Byte).toNat < 16 := by decide +kernel

theorem witness_StationsPortsAndListsAreReported :
    sample.freeAt .p0 = true ∧ sample.freeAt .p4 = true ∧ 63 < (64 : Byte).toNat ∧ (63 : Byte).toNat ≤ 63 ∧ sample.station 63 = none
      ∧ (∃ st, sample.station 0 = some st ∧ st.call = rlx4) ∧ callOf rlx4 = some rlx4 ∧ blankCall.length = 7 ∧ callOf blankCall = none
      ∧ callOf tc5hv = some tc5hv ∧ (∀ e < 64, ∀ st ∈ sample.station e, st.call ≠ tc5hv)
      ∧ portOf 6 = none ∧ portOf 1 = some .p1 ∧ sample.roles.get .p1 = .off
      ∧ portOf 5 = some .p5 ∧ sample.roles.get .p5 ≠ .off ∧ sample.roles.get .p4 ≠ .console ∧ Port.p5 ≠ .p4
      ∧ portOf 4 = some .p4 ∧ sample.roles.get .p0 = .console := ⟨by decide +kernel, by decide +kernel, by decide, by decide, by decide +kernel, ⟨_, rfl, rfl⟩, by decide, rfl, by decide, by decide,
    by decide +kernel, by decide, by decide, by decide, by decide, by decide, by decide, by decide, by decide, by decide⟩

theorem witness_RankQueryShowsTheTerms :
    sample.freeAt .p0 = true ∧ (0 : Half).toNat = 0 ∧ 9999 < (10000 : Half).toNat ∧ 7 < (8 : Byte).toNat ∧ 5 < (6 : Byte).toNat
      ∧ portOf 5 = some .p5 ∧ sample.copyAt 3 1 = none ∧ sample.copyAt 9999 7 = none
      ∧ (∃ m c, sample.findMsg 2 = some m ∧ m.copies[0]? = some c ∧ m.phase = .opened)
      ∧ ∃ m c, sample.findMsg 1 = some m ∧ m.copies[7]? = some c ∧ m.phase ≠ .opened := ⟨by decide +kernel, rfl, by decide, by decide, by decide, rfl, by decide +kernel, by decide +kernel, ⟨_, _, rfl, rfl, rfl⟩, _, _, rfl, rfl, by decide⟩

theorem witness_RankStaysInItsBand :
    precCode .life < precCode .priority ∧ precCode .welfare < precCode .routine := by decide +kernel

theorem witness_RankIsBasePlusClampedScore :
    (ranked .priority 720 5 1).raw < 0 ∧ 999 < (ranked .life 30000 0 3).raw
      ∧ (ranked .priority 2700 5 1).raw = 0 ∧ (ranked .routine 59940 0 0).raw = 999
      ∧ coldRanking.aging.get .life ≤ 15 ∧ coldRanking.penalty ≤ 255 ∧ coldRanking.fit ≤ 100 := by decide +kernel

theorem witness_CopyOrderIsTotal :
    let m := fun n q => msgOf n (.filed ⟨2, false, 9000, q⟩) .welfare .p2 []
    let x := fun n q i : Nat => (⟨m n q, i, copyOf 0 .waiting 0⟩ : Cand)
    sample.rankOf .p4 (x 1 1 0) = sample.rankOf .p4 (x 2 2 0) ∧ (x 1 1 0).msg.sequence < (x 2 2 0).msg.sequence
      ∧ sample.rankOf .p4 ⟨m 1 1, 0, copyOf 1 .waiting 0⟩ > sample.rankOf .p4 (x 1 1 0) ∧ (x 1 1 0).copy.station = 0
      ∧ (x 1 1 0).msg.sequence = (x 2 1 0).msg.sequence ∧ (x 1 1 0).index < (x 1 1 1).index ∧ (x 1 1 0).msg.number < (x 2 1 0).msg.number
      ∧ sample.best .p4 [x 2 2 0, x 1 1 0] = some (x 1 1 0) := by decide +kernel

theorem witness_GrantIsChosenExactlyFromPairs :
    (sample.store.map Message.number).Nodup ∧ (∃ c, sample.choose = some c) ∧ State.reset.choose = none ∧ sample.roles.get .p3 = .channel := ⟨by decide +kernel, Option.isSome_iff_exists.mp (by decide +kernel), by decide +kernel, rfl⟩

theorem witness_LifeThenTheStreakThenTheRotation :
    (sample.store.map Message.number).Nodup ∧ (∃ k, ∃ x ∈ sample.pairsOf k, x.msg.prec = .life)
      ∧ (∀ q ∈ Port.all, ∀ x ∈ noLife.pairsOf q, x.msg.prec ≠ .life) ∧ noLife.streak = some ⟨.p4, 1, 1⟩
      ∧ 1 < noLife.dispatch.runs.get .p4 ∧ (∃ x ∈ noLife.pairsOf .p4, x.copy.station = 1) ∧ noLife.inService = true
      ∧ ({ noLife with streak := none } : State).pairsOf .p4 ≠ [] := ⟨by decide +kernel, ⟨.p4, by decide +kernel⟩, by decide +kernel, rfl, by decide, by decide +kernel, rfl, by decide +kernel⟩

/-- The sample with an ASK that waits at P4. -/
def asking : State := withUnit .p4 { receiver := .hunting, service := some (.asking ⟨0x22, 7, 2 :: blankCall⟩ 2 2 none []), held := none, lastFault := .none_ }

/-- The streak and the rotation grant stand in the witness before this one; here a LIFE grant, with an ASK that waits and without one. -/
theorem witness_GrantHandsTheCopyOver :
    (∃ c, asking.inService = true ∧ (asking.store.map Message.number).Nodup ∧ asking.choose = some c
      ∧ (asking.channels.get c.port).state = .asking 2 none ∧ c.step = .life ∧ asking.entryOf c.port c.cand.msg.number c.cand.index = none
      ∧ asking.serviceOf c.port = some (.asking ⟨0x22, 7, 2 :: blankCall⟩ 2 2 none []))
    ∧ sample.choose.isSome = true ∧ sample.serviceOf .p4 = none := by
  obtain ⟨c, hc⟩ := Option.isSome_iff_exists.mp (show asking.choose.isSome = true by decide +kernel)
  have h : ∀ c ∈ asking.choose, (asking.channels.get c.port).state = .asking 2 none ∧ c.step = .life
      ∧ asking.entryOf c.port c.cand.msg.number c.cand.index = none
      ∧ asking.serviceOf c.port = some (.asking ⟨0x22, 7, 2 :: blankCall⟩ 2 2 none []) := by decide +kernel
  exact ⟨⟨c, rfl, by decide +kernel, hc, h c hc⟩, by decide +kernel, rfl⟩

theorem witness_CopyChangeCarriesItsEffects :
    (∃ c, sample.copyAt 1 0 = some c ∧ c.holder = none) ∧ ∃ c, sample.copyAt 1 1 = some c ∧ c.holder = some .p4
      ∧ (c.become .waiting).holder ≠ some .p4 ∧ (c.become (.withdrawing .p4)).state = some (.withdrawing .p4)
      ∧ (c.become (.taken .p4)).state = some (.taken .p4) := ⟨⟨_, rfl, rfl⟩, _, rfl, rfl, by decide, rfl, rfl⟩

theorem witness_SettingsCountersAndOwnCallAreTaken :
    sample.freeAt .p0 = true ∧ sample.roles.get .p0 = .console ∧ kd0qf.length = 7 ∧ callOf blankCall = none ∧ callOf kd0qf = some kd0qf
      ∧ findCall sample.book kd0qf = some 1 ∧ findCall sample.book tc5hv = none ∧ findCall sample.book rlx4 = some 0 := by decide +kernel

theorem witness_DispatchSettingsAreTaken :
    sample.freeAt .p0 = true ∧ sample.roles.get .p0 = .console ∧ min 240 (30 : Byte).toNat = sample.dispatch.decay
      ∧ min 240 (0 : Byte).toNat = 0 ∧ min 240 (255 : Byte).toNat ≠ sample.dispatch.decay ∧ min 240 (1 : Byte).toNat ≠ 0
      ∧ sample.station 63 = none ∧ ∃ st, sample.station 1 = some st := ⟨by decide +kernel, rfl, by decide, by decide, by decide, by decide, rfl, _, rfl⟩

/-- With a LIFE limit of 1 the copy of message 3 is one that fails; with 15 none does. -/
theorem witness_HandOffSettingsFailCopiesAtALoweredLimit :
    sample.freeAt .p0 = true ∧ sample.roles.get .p0 = .console ∧ (sample.store.map Message.number).Nodup
      ∧ ∃ m f c, sample.findMsg 3 = some m ∧ m.phase = .filed f ∧ m.copies[0]? = some c ∧ c.state = some .waiting ∧ c.attempts = 1
        ∧ sample.handOff.limits.get m.prec = 15 := ⟨by decide +kernel, rfl, by decide +kernel, _, _, _, rfl, rfl, rfl, rfl, rfl, rfl⟩

theorem witness_EventRequestsActAndTheFirstEventIsNamed :
    sample.freeAt .p0 = true ∧ (0x0FFF : Half).toNat < 4096 ∧ 4096 ≤ (0x1000 : Half).toNat ∧ sample.roles.get .p0 = .console
      ∧ annFnOf 6 = some .on ∧ annFnOf 0 = some .off ∧ 6 < (7 : Byte).toNat ∧ sample.inService = true ∧ sample.roles.get .p0 ≠ .off := by decide +kernel

theorem witness_EntryProvidedIsFreeOrTheOldest :
    coldBook[63]? = some none ∧ provideEntry sample.book sample.named [] = some (4, false)
      ∧ provideEntry (sample.book.take 4) sample.named [] = some (3, true) ∧ provideEntry (sample.book.take 3) sample.named [] = none := by decide +kernel

theorem witness_HeardWritesTheGradeAtItsPort :
    sample.freeAt .p4 = true ∧ sample.roles.get .p4 = .channel ∧ rlx4.length = 7 ∧ callOf rlx4 = some rlx4 ∧ rlx4 = sample.ownCall
      ∧ blankCall.length = 7 ∧ callOf blankCall = none
      ∧ callOf kd0qf = some kd0qf ∧ kd0qf ≠ sample.ownCall ∧ findCall sample.book kd0qf = some 1
      ∧ callOf tc5hv = some tc5hv ∧ findCall sample.book tc5hv = none ∧ provideEntry sample.book sample.named [] = some (4, false)
      ∧ 4 < sample.book.length
      ∧ (let s := { sample with book := sample.book.take 4 }
         provideEntry s.book s.named [] = some (3, true) ∧ 3 < s.book.length ∧ s.freeAt .p4 = true ∧ tc5hv ≠ s.ownCall)
      ∧ (let s := { sample with book := sample.book.take 3 }
         provideEntry s.book s.named [] = none ∧ s.freeAt .p4 = true ∧ tc5hv ≠ s.ownCall ∧ findCall s.book tc5hv = none) := by decide +kernel

theorem witness_SetStationClaimsTheEntry :
    sample.freeAt .p0 = true ∧ sample.roles.get .p0 = .console ∧ 64 ≤ (64 : Byte).toNat ∧ (63 : Byte).toNat < 64
      ∧ blankCall.length = 7 ∧ callOf blankCall = none
      ∧ callOf rlx4 = some sample.ownCall ∧ callOf kd0qf = some kd0qf ∧ kd0qf ≠ sample.ownCall ∧ findCall sample.book kd0qf = some 1
      ∧ (∃ st, sample.station 1 = some st) ∧ findCall sample.book tc5hv = none
      ∧ provideEntry sample.book sample.named [] = some (4, false) ∧ 4 < sample.book.length
      ∧ (let s := { sample with book := sample.book.take 4 }
         provideEntry s.book s.named [] = some (3, true) ∧ 3 < s.book.length ∧ s.freeAt .p0 = true)
      ∧ (let s := { sample with book := sample.book.take 3 }
         provideEntry s.book s.named [] = none ∧ s.freeAt .p0 = true ∧ findCall s.book tc5hv = none) := ⟨by decide +kernel, rfl, by decide, by decide, rfl, by decide, by decide +kernel, by decide, by decide +kernel, by decide +kernel, ⟨_, rfl⟩, by decide +kernel,
    by decide +kernel, by decide, by decide +kernel, by decide +kernel⟩

theorem witness_RemoveStationFreesAnUnnamedEntry :
    sample.freeAt .p0 = true ∧ sample.roles.get .p0 = .console ∧ callOf blankCall = none ∧ blankCall.length = 7
      ∧ callOf tc5hv = some tc5hv ∧ findCall sample.book tc5hv = none ∧ callOf rlx4 = some rlx4 ∧ findCall sample.book rlx4 = some 0
      ∧ (∃ st, callOf kd0qf = some kd0qf ∧ findCall sample.book kd0qf = some 1 ∧ sample.station 1 = some st ∧ sample.named 1 = true)
      ∧ ∃ st, callOf depot2 = some depot2 ∧ findCall sample.book depot2 = some 3 ∧ sample.station 3 = some st ∧ sample.named 3 = false := ⟨by decide +kernel, rfl, by decide, rfl, by decide, by decide +kernel, by decide, by decide +kernel,
    ⟨_, by decide, by decide +kernel, rfl, by decide +kernel⟩, _, by decide, by decide +kernel, rfl, by decide +kernel⟩

theorem witness_DecayAndHoldEndActWhenDue :
    sample.inService = true ∧ (∃ st, sample.station 1 = some st ∧ (st.grades.get .p4) = ⟨2, 9000⟩) ∧ sample.roles.get .p4 = .channel
      ∧ min (9000 + 30 * 60) 4294967295 > sample.clock ∧ min (9000 + 30 * 60) 4294967295 ≤ ({ sample with clock := 10800 } : State).clock
      ∧ (∃ c, sample.copyAt 1 6 = some c ∧ c.state = some (.heldFor .p4 10000) ∧ 10000 ≤ sample.clock)
      ∧ ∃ c, ({ sample with clock := 9999 } : State).copyAt 1 6 = some c ∧ c.state = some (.heldFor .p4 10000) ∧ 9999 < 10000 := ⟨rfl, ⟨_, rfl, rfl⟩, rfl, by decide, by decide, ⟨_, rfl, rfl, by decide⟩, _, rfl, rfl, by decide⟩

/-- The sample with 119, 120, 127 or another number of messages in the store, none of which auto-purge can take. -/
def crowded (n : Nat) (autoPurge : Bool) : State :=
  { sample with
    store := (List.range n).map fun k => msgOf (k + 1) (.filed ⟨2, false, 9000, k⟩) .welfare .p2 [copyOf 1 .waiting 0]
    storeSet := ⟨autoPurge, 90⟩ }

theorem witness_LodgeOpenRefusalsComeInOrder :
    sample.freeAt .p0 = true ∧ sample.freeAt .p2 = true ∧ (Instr.lodgeOpen .p0 7 1 tc5hv 1001 0 [kd0qf]).wellFormed = true
      ∧ openFields 4 blankCall 0 0 [kd0qf] = none ∧ openFields 0 blankCall 0 1000 [kd0qf] = none
      ∧ openFields 0 (bytes [0x41, 0x42, 0x20, 0x20, 0x20, 0x20, 0x20]) 1 0 [kd0qf] = none
      ∧ openFields 3 blankCall 0 999 [kd0qf] = some ⟨.routine, none, 0, 999, [kd0qf]⟩ ∧ sample.lodges.get .p2 = some ⟨2, 9990⟩ ∧ sample.lodges.get .p0 = none
      ∧ resolveAll sample.named sample.clock [tc5hv] (sample.book.take 3) [] = none
      ∧ openFields 1 tc5hv 1001 0 [kd0qf] = some ⟨.priority, some tc5hv, 1001, 0, [kd0qf]⟩
      ∧ (resolveAll sample.named sample.clock [kd0qf] sample.book []).isSome = true
      ∧ ⟨tc5hv, 1001⟩ ∈ sample.dupTable ∧ (sample.store.find? fun x => x.key == ⟨tc5hv, 1001⟩).isSome = true
      ∧ ⟨kd0qf, 7⟩ ∉ sample.dupTable ∧ ⟨kd0qf, 7⟩ ∈ sample.ring ∧ ⟨wx3bn, 7⟩ ∉ sample.dupTable ∧ ⟨wx3bn, 7⟩ ∉ sample.ring
      ∧ ((crowded 120 false).makeRoom fun u => u.store.length + 8 < 128) = none ∧ (crowded 120 false).freeAt .p0 = true
      ∧ (crowded 120 false).lodges.get .p0 = none
      ∧ (resolveAll (crowded 120 false).named (crowded 120 false).clock [kd0qf] (crowded 120 false).book []).isSome = true
      ∧ ((crowded 128 true).makeRoom fun u => u.store.length < 128) = none ∧ (crowded 128 true).freeAt .p0 = true
      ∧ openFields 1 blankCall 0 0 [] = none ∧ openFields 1 blankCall 0 0 (List.replicate 9 kd0qf) = none
      ∧ (resolveAll sample.named sample.clock [tc5hv, kd0qf] sample.book []).isSome = true := by decide +kernel

theorem witness_LodgeOpenMakesTheMessage :
    sample.freeAt .p0 = true ∧ sample.lodges.get .p0 = none ∧ (Instr.lodgeOpen .p0 7 1 wx3bn 9 0 [tc5hv]).wellFormed = true
      ∧ openFields 1 wx3bn 9 0 [tc5hv] = some ⟨.priority, some wx3bn, 9, 0, [tc5hv]⟩
      ∧ openFields 0 blankCall 0 0 [tc5hv] = some ⟨.life, none, 0, 0, [tc5hv]⟩
      ∧ (resolveAll sample.named sample.clock [tc5hv] sample.book []).isSome = true
      ∧ ⟨wx3bn, 9⟩ ∉ sample.dupTable ∧ ⟨wx3bn, 9⟩ ∉ sample.ring
      ∧ (sample.makeRoom fun u => u.store.length + 8 < 128).isSome = true
      ∧ (let s := { crowded 119 true with store := (crowded 119 true).store ++ [msgOf 900 (.closed ⟨2, false, 9300, 3⟩ 9600) .routine .p4 [copyOf 1 .cancelled 0]] }
         decide (s.store.length + 8 < 128) = false ∧ (s.makeRoom fun u => u.store.length + 8 < 128).isSome = true ∧ s.freeAt .p0 = true) := by
  decide +kernel

theorem witness_LocalNumberIsTheFirstFreeCandidate :
    let s := { noLife with lastNumber := 9999 }
    s.storeInLaw ∧ (∃ m ∈ s.store, m.number = numberAfter s.lastNumber) :=
  ⟨by unfold State.storeInLaw; decide +kernel, by decide +kernel⟩

/-- Message 4 alone is a candidate: purging it leaves three messages, and no run leaves none. -/
theorem witness_AutoPurgeTakesTheShortestRun :
    (let s := { sample with storeSet := ⟨false, 90⟩ }
     (fun u : State => u.store.length == 0) s = false ∧ s.storeSet.autoPurge = false)
      ∧ (fun u : State => u.store.length == 3) sample = false ∧ sample.storeSet.autoPurge = true
      ∧ (sample.makeRoom fun u => u.store.length == 3).isSome = true
      ∧ (sample.makeRoom fun u => u.store.length == 0) = none ∧ 1 ≤ sample.purgeCands.length
      ∧ (fun u : State => u.store.length == 4) sample = true := by decide +kernel

/-- A body of 4 bytes in one block takes 28 more in it and needs another for 29; one of 2,040 takes 8 more and not 9; with 127 blocks free a ROUTINE
message is given none. -/
theorem witness_LodgePartAppendsToTheBody :
    sample.freeAt .p0 = true ∧ sample.freeAt .p2 = true ∧ sample.lodges.get .p0 = none ∧ sample.lodges.get .p2 = some ⟨2, 9990⟩
      ∧ (∃ m, sample.findMsg 2 = some m ∧ m.body.length = 4 ∧ (m.body.length + 28 + 31) / 32 - m.chain.length = 0
          ∧ (m.body.length + 29 + 31) / 32 - m.chain.length = 1 ∧ 1 + 128 ≤ sample.freeBlocks)
      ∧ (let long : Message := { msgOf 2 .opened .routine .p2 [] with body := List.replicate 2040 0x41, chain := List.range 64 }
         let s := { sample with store := [long] }
         s.findMsg 2 = some long ∧ s.freeAt .p2 = true ∧ 2048 < long.body.length + 9 ∧ long.body.length + 8 ≤ 2048)
      ∧ (let empty : Message := { msgOf 2 .opened .routine .p2 [] with chain := [] }
         let s := { sample with store := [empty, { empty with number := 4, chain := List.range 1921 }], storeSet := ⟨false, 90⟩ }
         s.findMsg 2 = some empty ∧ (empty.body.length + 1 + 31) / 32 - empty.chain.length = 1 ∧ s.freeBlocks = 127 ∧ s.freeAt .p2 = true
           ∧ (s.makeRoom fun u => decide (1 + 128 ≤ u.freeBlocks)) = none) := by
  refine ⟨by decide +kernel, by decide +kernel, rfl, rfl, ⟨_, rfl, rfl, rfl, rfl, by decide +kernel⟩, by decide +kernel, by decide +kernel⟩

/-- The same ROUTINE message with a CLOSED one of 1,921 blocks, which auto-purge takes. -/
theorem witness_LodgePartAfterAutoPurge :
    let empty : Message := { msgOf 2 .opened .routine .p2 [] with chain := [] }
    let long := { msgOf 4 (.closed ⟨2, false, 9300, 3⟩ 9600) .routine .p4 [copyOf 1 .cancelled 0] with chain := List.range 1921 }
    let s := { sample with store := [empty, long] }
    s.findMsg 2 = some empty ∧ empty.phase = .opened ∧ (s.store.map Message.number).Nodup ∧ s.freeAt .p2 = true
      ∧ s.freeBlocks = 127 ∧ (s.makeRoom fun u => decide (1 + 128 ≤ u.freeBlocks)).isSome = true :=
  ⟨by decide +kernel, rfl, by decide +kernel, by decide +kernel, by decide +kernel, by decide +kernel⟩

theorem witness_AffinityHoldsMeetTheSixConditions :
    ({ sample with book := sample.book.set 2 (some (stationOf wx3bn .auto 0 3 1 (some ⟨.p4, 8200⟩) 4)) } : State).entryState .welfare
        (copyOf 2 .failed 0) = .heldFor .p4 10060
      ∧ ({ sample with clock := 10001 } : State).entryState .welfare (copyOf 2 .failed 0) = .waiting
      ∧ sample.entryState .life (copyOf 2 .failed 0) = .waiting := by decide +kernel

theorem witness_LodgeCloseFilesTheMessage :
    sample.freeAt .p0 = true ∧ sample.freeAt .p2 = true ∧ sample.lodges.get .p0 = none ∧ sample.lodges.get .p2 = some ⟨2, 9990⟩
      ∧ ∃ m, sample.findMsg 2 = some m ∧ ({ m with wordCheck := 3 } : Message).wordCheck ≠ (wordsOf m.body).length
        ∧ (wordsOf m.body).length = 2 := ⟨by decide +kernel, by decide +kernel, rfl, rfl, _, rfl, by decide +kernel, by decide +kernel⟩

theorem witness_DropAndTimeoutRemoveTheOpenMessage :
    sample.freeAt .p0 = true ∧ sample.lodges.get .p0 = none ∧ sample.freeAt .p2 = true ∧ sample.lodges.get .p2 = some ⟨2, 9990⟩
      ∧ (∃ m, sample.findMsg 2 = some m) ∧ sample.prevLow = sample.low ∧ sample.hears .p2 = true ∧ 9990 ≤ sample.clock
      ∧ 9989 < 9990 ∧ ({ sample with clock := 9990 } : State).prevLow = ({ sample with clock := 9989 } : State).low := ⟨by decide +kernel, rfl, by decide +kernel, rfl, ⟨_, rfl⟩, by decide +kernel, by decide +kernel, by decide, by decide, by decide +kernel⟩

theorem witness_ChannelsOpenCloseAndAreRestored :
    sample.freeAt .p3 = true ∧ sample.roles.get .p3 = .channel ∧ sample.freeAt .p4 = true ∧ sample.freeAt .p5 = true ∧ sample.freeAt .p0 = true
      ∧ (State.reset.channels.get .p3).state = .closed ∧ State.reset.freeAt .p3 = true
      ∧ (sample.channels.get .p3).state = .ready ∧ sample.lists.get .p3 = []
      ∧ (sample.channels.get .p4).state = .asking 2 none ∧ sample.lists.get .p4 ≠ [] ∧ (sample.channels.get .p5).state = .lapsed
      ∧ sample.roles.get .p0 = .console ∧ portOf 6 = none ∧ portOf 5 = some .p5 ∧ sample.roles.get .p5 = .channel
      ∧ portOf 2 = some .p2 ∧ sample.roles.get .p2 ≠ .channel ∧ portOf 3 = some .p3 ∧ (sample.channels.get .p3).state ≠ .lapsed := by decide +kernel

theorem witness_AdminModesAct :
    sample.freeAt .p0 = true ∧ sample.roles.get .p0 = .console ∧ portOf 6 = none ∧ 3 < (4 : Byte).toNat
      ∧ portOf 5 = some .p5 ∧ adminOf 0 = some .none_ ∧ adminOf 1 = some .hold ∧ adminOf 2 = some .step ∧ adminOf 3 = some .bar
      ∧ sample.roles.get .p2 ≠ .channel ∧ sample.roles.get .p4 = .channel ∧ (sample.channels.get .p4).state = .asking 2 none
      ∧ sample.roles.get .p3 = .channel ∧ (sample.channels.get .p3).state = .ready
      ∧ ((sample.releaseHolds .p4).copyAt 1 6).map Copy.state = some (some .waiting) := by decide +kernel

theorem witness_AsksStandAndAreWithdrawn :
    sample.freeAt .p3 = true ∧ sample.freeAt .p4 = true ∧ sample.freeAt .p5 = true ∧ sample.roles.get .p4 = .channel
      ∧ (bytes [0x41]).length ≠ 7 ∧ (bytes [0x41, 0x42, 0x20, 0x20, 0x20, 0x20, 0x20]).length = 7
      ∧ callOf (bytes [0x41, 0x42, 0x20, 0x20, 0x20, 0x20, 0x20]) = none
      ∧ (sample.channels.get .p5).state = .lapsed ∧ (sample.channels.get .p3).state = .ready
      ∧ ({ sample with admin := .same .bar } : State).admin.get .p4 = .bar ∧ sample.admin.get .p4 ≠ .bar
      ∧ callOf rlx4 = some sample.ownCall ∧ callOf tc5hv = some tc5hv ∧ tc5hv ≠ sample.ownCall ∧ findCall sample.book tc5hv = none
      ∧ callOf kd0qf = some kd0qf ∧ kd0qf ≠ sample.ownCall ∧ findCall sample.book kd0qf = some 1
      ∧ blankCall = List.replicate 7 0x20 ∧ (sample.channels.get .p4).state = .asking 2 none
      ∧ (after (exec (.ask .p4 7 2 blankCall) { sample with admin := .same .hold })).pairsOf .p4 = []
      ∧ (after (exec (.ask .p4 7 2 blankCall) sample)).pairsOf .p4 ≠ []
      ∧ 4 - (sample.lists.get .p4).length = 2 ∧ max 1 (min 4 (0 : Byte).toNat) = 1 ∧ max 1 (min 4 (255 : Byte).toNat) = 4 := by decide +kernel

theorem witness_ExtendMovesTheDeadline :
    sample.freeAt .p4 = true ∧ (0 : Half).toNat = 0 ∧ 9999 < (10000 : Half).toNat ∧ 7 < (8 : Byte).toNat
      ∧ 1 ≤ (1 : Half).toNat ∧ (9999 : Half).toNat ≤ 9999 ∧ (7 : Byte).toNat ≤ 7 ∧ sample.copyAt 9999 7 = none
      ∧ (∃ m c, sample.findMsg 2 = some m ∧ m.copies[0]? = some c ∧ m.phase = .opened)
      ∧ (∃ m c, sample.findMsg 1 = some m ∧ m.copies[7]? = some c ∧ m.phase ≠ .opened) ∧ sample.entryOf .p4 1 7 = none
      ∧ sample.entryOf .p4 1 4 = some ⟨1, 4, 11000, 2, true⟩ ∧ sample.entryOf .p4 1 1 = some ⟨1, 1, 10000, 0, false⟩
      ∧ ({ sample with lists := sample.lists.set .p4 [⟨1, 1, 10000, 2, false⟩] } : State).entryOf .p4 1 1 = some ⟨1, 1, 10000, 2, false⟩ := ⟨by decide +kernel, rfl, by decide, by decide, by decide, by decide, by decide, by decide +kernel, ⟨_, _, rfl, rfl, rfl⟩,
    ⟨_, _, rfl, rfl, by decide⟩, by decide +kernel, by decide +kernel, by decide +kernel, by decide +kernel⟩

theorem witness_TakeLocalHandsOverTheHighestRanked :
    sample.freeAt .p0 = true ∧ sample.roles.get .p0 = .console ∧ sample.numbersDistinct ∧ (sample.lists.get .p0).length < 4
      ∧ (∃ m f c, sample.findMsg 1 = some m ∧ m.phase = .filed f ∧ m.copies[2]? = some c ∧ c.station = 0 ∧ c.state = some .waiting)
      ∧ sample.entryOf .p0 1 2 = none
      ∧ (∀ m ∈ ({ sample with store := sample.store.drop 1 } : State).store, ∀ c ∈ m.copies, c.station ≠ 0)
      ∧ 4 ≤ (({ sample with lists := sample.lists.set .p0 (List.replicate 4 ⟨1, 2, 0, 0, false⟩) } : State).lists.get .p0).length := ⟨by decide +kernel, rfl, by unfold State.numbersDistinct; decide +kernel, by decide, ⟨_, _, _, rfl, rfl, rfl, rfl, rfl⟩, by decide +kernel, by decide +kernel, by decide⟩

/-- In message 1, index 2 and index 7 are local, index 5 has been delivered. -/
theorem witness_ReportRefusalsComeInOrder :
    sample.freeAt .p0 = true ∧ sample.freeAt .p4 = true ∧ blankCall.length = 7 ∧ 9999 < (10000 : Half).toNat ∧ 3 < (4 : Byte).toNat
      ∧ callOf blankCall = none ∧ (9999 : Half).toNat ≤ 9999 ∧ (7 : Byte).toNat ≤ 7 ∧ sample.copyAt 9999 7 = none
      ∧ (∃ m c, sample.findMsg 2 = some m ∧ m.copies[0]? = some c ∧ m.phase = .opened)
      ∧ (∃ m c d, sample.findMsg 1 = some m ∧ m.phase ≠ .opened ∧ m.copies[2]? = some c ∧ c.station = 0
          ∧ m.copies[5]? = some d ∧ d.station ≠ 0 ∧ d.terminal = true)
      ∧ sample.entryOf .p4 1 2 = none ∧ sample.roles.get .p4 = .channel ∧ sample.entryOf .p0 1 2 = none ∧ sample.roles.get .p0 ≠ .channel
      ∧ sample.entryOf .p4 1 5 = none ∧ sample.entryOf .p0 1 5 = none
      ∧ (∃ m c, ({ sample with store := [msgOf 1 (.closed ⟨2, false, 9300, 3⟩ 9600) .welfare .p2 [copyOf 0 .cancelled 0]] } : State).findMsg 1 = some m
          ∧ m.copies[0]? = some c ∧ c.station = 0 ∧ c.terminal = true) := ⟨by decide +kernel, by decide +kernel, rfl, by decide, by decide, by decide, by decide, by decide, by decide +kernel,
    ⟨_, _, rfl, rfl, rfl⟩, ⟨_, _, _, rfl, by decide, rfl, rfl, rfl, by decide, by decide⟩, by decide +kernel, rfl, by decide +kernel, by decide,
    by decide +kernel, by decide +kernel, _, _, rfl, rfl, rfl, by decide⟩

theorem witness_OwnReportClosesTheEntry :
    sample.freeAt .p4 = true ∧ rlx4.length = 7 ∧ callOf rlx4 ≠ none ∧ outcomeOf 0 = some .delivered ∧ outcomeOf 1 = some .relayed
      ∧ outcomeOf 2 = some .noContact ∧ outcomeOf 3 = some .returned ∧ sample.admin.get .p4 ≠ .step
      ∧ sample.entryOf .p4 1 1 = some ⟨1, 1, 10000, 0, false⟩ ∧ sample.entryOf .p4 1 4 = some ⟨1, 4, 11000, 2, true⟩
      ∧ sample.entryOf .p2 1 7 = some ⟨1, 7, 10500, 0, false⟩ ∧ sample.freeAt .p2 = true ∧ sample.roles.get .p2 ≠ .channel
      ∧ (∃ m c d x, sample.findMsg 1 = some m ∧ m.phase ≠ .opened ∧ m.copies[1]? = some c ∧ c.state = some (.taken .p4) ∧ c.station ≠ 0
          ∧ m.copies[4]? = some d ∧ d.state = some (.withdrawing .p4) ∧ m.copies[7]? = some x ∧ x.state = some (.taken .p2) ∧ x.station = 0)
      ∧ (let s := { sample with admin := sample.admin.set .p4 .step }
         s.admin.get .p4 = .step ∧ s.freeAt .p4 = true ∧ s.roles.get .p4 = .channel ∧ (s.copyAt 1 1).bind Copy.holder = some .p4) := ⟨by decide +kernel, rfl, by decide, by decide, by decide, by decide, by decide, by decide, by decide +kernel, by decide +kernel,
    by decide +kernel, by decide +kernel, by decide, ⟨_, _, _, _, rfl, by decide, rfl, rfl, by decide, rfl, rfl, rfl, rfl, rfl⟩, by decide +kernel⟩

theorem witness_LateReportIsAccepted :
    sample.freeAt .p3 = true ∧ sample.freeAt .p0 = true ∧ rlx4.length = 7 ∧ callOf rlx4 ≠ none ∧ sample.roles.get .p3 = .channel
      ∧ sample.roles.get .p0 ≠ .channel ∧ sample.entryOf .p3 1 1 = none ∧ sample.entryOf .p3 1 0 = none ∧ sample.entryOf .p0 1 7 = none
      ∧ ∃ m a c x, sample.findMsg 1 = some m ∧ m.phase ≠ .opened ∧ m.copies[0]? = some a ∧ a.live = true ∧ a.holder = none ∧ a.station ≠ 0
        ∧ m.copies[1]? = some c ∧ c.live = true ∧ c.holder = some .p4 ∧ sample.roles.get .p4 ≠ .off
        ∧ m.copies[7]? = some x ∧ x.live = true ∧ x.station = 0 := ⟨by decide +kernel, by decide +kernel, rfl, by decide, rfl, by decide, by decide +kernel, by decide +kernel, by decide +kernel,
    _, _, _, _, rfl, by decide, rfl, by decide, rfl, by decide, rfl, by decide, rfl, by decide, rfl, by decide, rfl⟩

/-- At 10,000 the entry of index 1 is due, that of index 4 is not; at 11,000 it is. -/
theorem witness_DeadlineExpiryReturnsTheCopy :
    sample.inService = true ∧ sample.entryOf .p3 1 1 = none ∧ sample.entryOf .p4 1 1 = some ⟨1, 1, 10000, 0, false⟩ ∧ 10000 ≤ sample.clock
      ∧ sample.entryOf .p4 1 4 = some ⟨1, 4, 11000, 2, true⟩ ∧ sample.clock < 11000 ∧ sample.roles.get .p4 ≠ .off
      ∧ min 7 ((sample.channels.get .p4).lapseCount + 1) < sample.handOff.lapseLimit
      ∧ ∃ m c d, sample.findMsg 1 = some m ∧ m.copies[1]? = some c ∧ c.state = some (.taken .p4)
        ∧ m.copies[4]? = some d ∧ d.state = some (.withdrawing .p4) := ⟨rfl, by decide +kernel, by decide +kernel, by decide, by decide +kernel, by decide, by decide, by decide, _, _, _, rfl, rfl, rfl, rfl, rfl⟩

theorem witness_LapseCutsTheChannelOff :
    let s := { sample with channels := sample.channels.set .p4 ⟨.asking 2 none, 2⟩ }
    s.inService = true ∧ s.roles.get .p4 = .channel ∧ s.entryOf .p4 1 1 = some ⟨1, 1, 10000, 0, false⟩ ∧ 10000 ≤ s.clock
      ∧ s.handOff.lapseLimit ≤ min 7 ((s.channels.get .p4).lapseCount + 1) ∧ (s.store.map Message.number).Nodup
      ∧ s.lists.get .p4 = [⟨1, 1, 10000, 0, false⟩, ⟨1, 4, 11000, 2, true⟩]
      ∧ ∃ m f c d, s.findMsg 1 = some m ∧ m.phase = .filed f ∧ m.copies[1]? = some c ∧ c.station ≠ 0 ∧ c.state = some (.taken .p4)
        ∧ m.copies[4]? = some d ∧ d.station ≠ 0 ∧ d.state = some (.withdrawing .p4) := ⟨rfl, rfl, by decide +kernel, by decide, by decide, by decide +kernel, rfl, _, _, _, _, rfl, rfl, rfl, by decide, rfl, rfl, by decide, rfl⟩

theorem witness_CancelActsOnCopies :
    sample.freeAt .p0 = true ∧ sample.roles.get .p0 = .console ∧ (0 : Half).toNat = 0 ∧ 9999 < (10000 : Half).toNat ∧ 7 < (8 : Byte).toNat
      ∧ (8 : Byte).toNat ≠ 255 ∧ (255 : Byte).toNat = 255 ∧ (9999 : Half).toNat ≤ 9999 ∧ sample.findMsg 9999 = none
      ∧ (∃ m c, sample.findMsg 2 = some m ∧ m.phase = .opened ∧ m.copies[0]? = some c ∧ m.copies[7]? = none)
      ∧ (∃ m, sample.findMsg 4 = some m ∧ m.phase ≠ .opened ∧ ∀ c ∈ m.copies, c.state = some .cancelled)
      ∧ ∃ m f a c d, sample.findMsg 1 = some m ∧ m.phase = .filed f ∧ m.copies[0]? = some a ∧ a.state = some .waiting
        ∧ m.copies[1]? = some c ∧ c.state = some (.taken .p4) ∧ sample.roles.get .p4 ≠ .off
        ∧ m.copies[5]? = some d ∧ d.terminal = true
        ∧ ∀ j ∈ Port.all, ∀ e ∈ sample.lists.get j, e.number = 1 → ∀ c ∈ m.copies[e.index]?, c.state = some (.withdrawing j) → e.withdrawing = true := ⟨by decide +kernel, rfl, rfl, by decide, by decide, by decide, rfl, by decide, by decide +kernel, ⟨_, _, rfl, rfl, rfl, rfl⟩,
    ⟨_, rfl, by decide, by decide⟩, _, _, _, _, _, rfl, rfl, rfl, rfl, rfl, rfl, by decide, rfl, by decide, by decide +kernel⟩

theorem witness_PinAndRequeueActOnCopies :
    sample.freeAt .p0 = true ∧ sample.roles.get .p0 = .console ∧ portOf 6 = none ∧ portOf 5 = some .p5 ∧ sample.roles.get .p5 = .channel
      ∧ portOf 2 = some .p2 ∧ sample.roles.get .p2 ≠ .channel ∧ portOf 4 = some .p4 ∧ sample.copyAt 1 8 = none ∧ sample.findMsg 9999 = none
      ∧ (∃ m c, sample.findMsg 2 = some m ∧ m.copies[0]? = some c ∧ m.phase = .opened ∧ c.station ≠ 0)
      ∧ (∃ m, sample.findMsg 4 = some m ∧ m.phase ≠ .opened ∧ m.copies ≠ [] ∧ m.copies[1]? = none ∧ ∀ c ∈ m.copies, c.state ≠ some .failed)
      ∧ ∃ m a x d h w, sample.findMsg 1 = some m ∧ m.phase ≠ .opened ∧ m.copies[0]? = some a ∧ a.station ≠ 0 ∧ a.code = 0
        ∧ m.copies[2]? = some x ∧ x.station = 0 ∧ m.copies[3]? = some d ∧ d.state = some .failed ∧ m.copies[6]? = some h
        ∧ h.state = some (.heldFor .p4 10000) ∧ m.copies[4]? = some w ∧ w.state = some (.withdrawing .p4)
        ∧ ∀ e ∈ sample.lists.get .p4, e.number = 1 → e.index = 4 → e.withdrawing = true := ⟨by decide +kernel, rfl, by decide, by decide, rfl, by decide, by decide, by decide, by decide +kernel, by decide +kernel,
    ⟨_, _, rfl, rfl, rfl, by decide⟩, ⟨_, rfl, by decide, by decide, rfl, by decide⟩, _, _, _, _, _, _, rfl, by decide, rfl, by decide, by decide, rfl, rfl, rfl, rfl,
    rfl, rfl, rfl, rfl, by decide⟩

theorem witness_PurgeAndClearStoreRemoveTraffic :
    sample.freeAt .p0 = true ∧ sample.roles.get .p0 = .console ∧ (0 : Half).toNat = 0 ∧ 9999 < (10000 : Half).toNat
      ∧ (9999 : Half).toNat ≤ 9999 ∧ sample.findMsg 9999 = none ∧ (∃ m, sample.findMsg 2 = some m ∧ m.phase = .opened)
      ∧ (∃ m, sample.findMsg 1 = some m ∧ m.phase ≠ .opened ∧ ∃ c ∈ m.copies, c.holder ≠ none)
      ∧ ∃ m, sample.findMsg 3 = some m ∧ m.phase ≠ .opened ∧ ∀ c ∈ m.copies, c.holder = none := ⟨by decide +kernel, rfl, rfl, by decide, by decide, by decide +kernel, ⟨_, rfl, rfl⟩, ⟨_, rfl, by decide, by decide⟩, _, rfl, by decide, by decide⟩

/-- The sample without main power, its latch as given. -/
def unpowered (latch : Bool) : State := { sample with power := .unpowered, latch }

theorem witness_ClockAndSuppliesAct :
    sample.power ≠ .unpowered ∧ ({ sample with power := .startUp true false } : State).power ≠ .unpowered ∧ (unpowered false).power = .unpowered := by
  decide

theorem witness_StartUpsGiveTheirValues :
    (unpowered true).power = .unpowered ∧ (unpowered true).latch = true ∧ (unpowered false).latch = false ∧ (unpowered false).everPowered = true
      ∧ ({ unpowered false with everPowered := false } : State).everPowered = false ∧ sample.power ≠ .unpowered := by decide

theorem witness_RecoveryPassActsOnTheStore :
    (∃ t, sample.power ≠ .unpowered ∧ exec (.resetAsserted rlxStraps) sample = .next t)
      ∧ (∃ t, (unpowered false).power = .unpowered ∧ (unpowered false).latch = false ∧ (unpowered false).everPowered = true
          ∧ exec (.mainPowerApplied rlxStraps) (unpowered false) = .next t)
      ∧ sample.dupTable.Perm (sample.store.map Message.key) := ⟨⟨_, by decide, rfl⟩, ⟨_, rfl, rfl, rfl, rfl⟩, by decide +kernel⟩

theorem witness_StartUpEndBeginsService :
    (∃ warm failed, ({ sample with power := .startUp true true } : State).power = .startUp warm failed) ∧ sample.power = .running
      ∧ (unpowered true).power = .unpowered ∧ (∃ st, sample.station 1 = some st ∧ 0 < (st.grades.get .p4).value) ∧ sample.station 63 = none
      ∧ min (9000 + sample.dispatch.decay * 60) 4294967295 ≤ 10800 := ⟨⟨_, _, rfl⟩, rfl, rfl, ⟨_, rfl, by decide⟩, by decide +kernel, by decide⟩

/-- The sample with its outputs brought into agreement and a request waiting. -/
def lawful : State := { noLife.finish with pending := [.takeLocal .p0 1] }

theorem witness_EventUnitAndListsStayInLaw :
    lawful.eventsRouted ∧ lawful.outputsAgree ∧ lawful.listsInLaw ∧ ∃ t, step lawful = .next t :=
  ⟨fun p => by cases p <;> decide +kernel, ⟨fun p => by cases p <;> decide +kernel, by decide +kernel⟩,
    fun p => by cases p <;> decide +kernel, _, rfl⟩

theorem witness_StoreStaysInLaw : lawful.storeInLaw ∧ ∃ t, step lawful = .next t :=
  ⟨by unfold State.storeInLaw; decide +kernel, _, rfl⟩

theorem witness_ResetIsWhereAColdStartEnds :
    (unpowered true).power = .unpowered ∧ (unpowered true).latch = true ∧ (unpowered true).pending = [] ∧ (unpowered true).picks = 0 := by decide

theorem sample_wholeInLaw : sample.wholeInLaw := by
  refine ⟨by unfold State.storeInLaw; decide +kernel, by unfold State.keysInLaw; decide +kernel,
    by unfold Message.inLaw; decide +kernel, by unfold State.blocksInLaw; decide +kernel, ?_, ?_, fun p => ?_, ?_, ?_⟩
  · exact ⟨fun p l h => by cases p <;> cases h; decide +kernel, by decide +kernel⟩
  · refine ⟨by decide +kernel, by decide +kernel, by decide +kernel, fun p n f _ h => ?_, fun e st h => ?_⟩
    · cases p <;> cases h
    · have key : ∀ e < 64, ∀ st ∈ sample.station e,
          st.waiting = (sample.store.map fun m => m.copies.countP fun c => c.live && c.station == e).sum := by decide +kernel
      refine key e (Nat.lt_of_not_le fun he => ?_) st h
      rw [State.station, List.getElem?_eq_none (by exact he)] at h
      cases h
  · simp only [← Option.bind_eq_some_iff]
    have key : ∀ m ∈ sample.store, ∀ x ∈ m.copies.zipIdx, ∀ p ∈ Port.all, x.1.holder = some p →
        ∃ e ∈ sample.lists.get p, e.number = m.number ∧ e.index = x.2 := by decide +kernel
    refine ⟨by cases p <;> decide +kernel, by cases p <;> decide +kernel, fun _ m hm i c hi => key m hm (c, i) ?_ p (by cases p <;> decide)⟩
    exact List.mk_mem_zipIdx_iff_getElem?.mpr hi
  · exact ⟨fun prec => by cases prec <;> decide, by decide +kernel⟩
  · intro _ m hm c hc k ends h
    have key : ∀ m ∈ sample.store, ∀ c ∈ m.copies, ∀ k ∈ Port.all, c.heldFor k = true → sample.mayHold k = true := by decide +kernel
    exact key m hm c hc k (by cases k <;> decide) (by simp [Copy.heldFor, h])

theorem witness_WholeStoreStaysInLaw : sample.wholeInLaw ∧ ∃ t, step sample = .next t := ⟨sample_wholeInLaw, _, rfl⟩

end Sys2Proof.Tests
end

section
/-! PROOF. Ranking: the terms of a rank and the band it lies in (R87 to R90). -/
namespace Sys2Proof.Ranking

open Sys2Proof.Machine

/-! ### The terms -/

variable (s : State) (m : Message) (c : Copy) (p : Port)

theorem ageMinutes_le (now filed : Nat) : ageMinutes now filed ≤ 999 := Nat.min_le_left ..

theorem raw_eq :
    (s.rankTerms m c p).raw
      = ((s.rankTerms m c p).aging : Int) - (s.rankTerms m c p).penalty + (s.rankTerms m c p).fit := rfl

theorem clamped_iff :
    (s.rankTerms m c p).clamped = true ↔ (s.rankTerms m c p).raw < 0 ∨ 999 < (s.rankTerms m c p).raw := by
  simp [State.rankTerms]

/-- The rank as an integer equation, in which the clamp can be reasoned about beside the signed raw score. -/
theorem rank_eq :
    ((s.rankTerms m c p).rank : Int) = rankBase m.prec + max 0 (min 999 (s.rankTerms m c p).raw) := by
  have nonneg : 0 ≤ max 0 (min 999 (s.rankTerms m c p).raw) := Int.le_max_left ..
  calc ((s.rankTerms m c p).rank : Int)
      = rankBase m.prec + ((max 0 (min 999 (s.rankTerms m c p).raw)).toNat : Int) := Int.natCast_add ..
    _ = _ := by rw [Int.toNat_of_nonneg nonneg]

/-! ### The ranges of the terms (R88) -/

theorem aging_le (h : s.ranking.aging.get m.prec ≤ 15) : (s.rankTerms m c p).aging ≤ 14985 :=
  Nat.mul_le_mul (ageMinutes_le ..) h

theorem penalty_le (hattempts : c.attempts ≤ 15) (hpenalty : s.ranking.penalty ≤ 255) :
    (s.rankTerms m c p).penalty ≤ 3825 :=
  Nat.mul_le_mul hattempts hpenalty

theorem grade_le (h : s.grade c.station p ≤ 3) : (s.rankTerms m c p).grade ≤ 3 := by
  simp only [State.rankTerms]
  split
  · exact Nat.zero_le 3
  · exact h

theorem fit_le (hgrade : s.grade c.station p ≤ 3) (hfit : s.ranking.fit ≤ 100) : (s.rankTerms m c p).fit ≤ 300 :=
  Nat.mul_le_mul (grade_le s m c p hgrade) hfit

/-! ### The bands (R89, R90) -/

theorem rankBase_add_precCode (q : Prec) : rankBase q + 1000 * precCode q = 3000 := by cases q <;> rfl

theorem rank_mem_band :
    rankBase m.prec ≤ (s.rankTerms m c p).rank ∧ (s.rankTerms m c p).rank ≤ rankBase m.prec + 999 := by
  have := rank_eq s m c p
  omega

/-- The bands do not overlap: a lower precedence code is a higher band. -/
theorem band_below {q r : Prec} (h : precCode q < precCode r) : rankBase r + 999 < rankBase q := by
  have := rankBase_add_precCode q
  have := rankBase_add_precCode r
  omega

end Sys2Proof.Ranking
end

section
/-! PROOF. The order of copies (R91). A candidate at its rank is given a key in a lexicographic product of linear orders;
standing before another is having the smaller key, and the highest-ranked copy of a list is one of least key. -/
namespace Sys2Proof.Ranking

open Sys2Proof.Machine

/-- What R91 compares, in its order: the rank (higher first), the filing sequence, the addressee index, the local number. -/
def orderKey (x : Nat × Cand) : Natᵒᵈ ×ₗ Nat ×ₗ Nat ×ₗ Nat :=
  toLex (OrderDual.toDual x.1, toLex (x.2.msg.sequence, toLex (x.2.index, x.2.msg.number)))

theorem orderKey_lt_iff {x y : Nat × Cand} :
    orderKey x < orderKey y ↔
      y.1 < x.1 ∨ x.1 = y.1 ∧ (x.2.msg.sequence < y.2.msg.sequence ∨ x.2.msg.sequence = y.2.msg.sequence ∧
        (x.2.index < y.2.index ∨ x.2.index = y.2.index ∧ x.2.msg.number < y.2.msg.number)) := by
  simp only [orderKey, Prod.Lex.toLex_lt_toLex, OrderDual.toDual_lt_toDual, EmbeddingLike.apply_eq_iff_eq]

theorem standsBefore_iff {x y : Nat × Cand} : standsBefore x.1 x.2 y.1 y.2 = true ↔ orderKey x < orderKey y := by
  rw [orderKey_lt_iff, standsBefore]
  simp only [bne_iff_ne, ne_eq]
  split
  · simp only [decide_eq_true_eq]; omega
  · split
    · simp only [decide_eq_true_eq]; omega
    · split
      · simp only [decide_eq_true_eq]; omega
      · simp only [decide_eq_true_eq]; omega

/-- Two candidates of one key are one copy: they agree in the local number and the addressee index. -/
theorem same_copy_of_orderKey_eq {x y : Nat × Cand} (h : orderKey x = orderKey y) :
    x.2.msg.number = y.2.msg.number ∧ x.2.index = y.2.index := by
  simp only [orderKey, EmbeddingLike.apply_eq_iff_eq, Prod.mk.injEq] at h
  obtain ⟨-, -, hindex, hnumber⟩ := h
  exact ⟨hnumber, hindex⟩

/-! ### The first of a list -/

theorem firstRanked_eq_none_iff {xs : List (Nat × Cand)} : firstRanked xs = none ↔ xs = [] := by
  cases xs with
  | nil => exact ⟨fun _ => rfl, fun _ => rfl⟩
  | cons x xs =>
    have hsome : firstRanked (x :: xs) ≠ none := by
      rw [firstRanked]
      split
      · exact Option.some_ne_none _
      · split <;> exact Option.some_ne_none _
    exact ⟨fun h => absurd h hsome, fun h => absurd h (List.cons_ne_nil _ _)⟩

/-- The first in order is in the list and has its least key. -/
theorem firstRanked_least {xs : List (Nat × Cand)} {x : Nat × Cand} (h : firstRanked xs = some x) :
    x ∈ xs ∧ ∀ y ∈ xs, orderKey x ≤ orderKey y := by
  induction xs generalizing x with
  | nil => cases h
  | cons a xs ih =>
    rw [firstRanked] at h
    split at h
    next hnone =>
      cases h
      rw [firstRanked_eq_none_iff] at hnone
      simp [hnone]
    next b hb =>
      obtain ⟨hmem, hleast⟩ := ih hb
      split at h
      next hbefore =>
        cases h
        have hlt : orderKey x < orderKey a := standsBefore_iff.mp hbefore
        exact ⟨.tail _ hmem, List.forall_mem_cons.mpr ⟨hlt.le, hleast⟩⟩
      next hbefore =>
        cases h
        have hle : orderKey a ≤ orderKey b := not_lt.mp fun hlt => hbefore (standsBefore_iff.mpr hlt)
        exact ⟨.head _, List.forall_mem_cons.mpr ⟨le_rfl, fun y hy => hle.trans (hleast y hy)⟩⟩

/-! ### The order for one port -/

variable {s : State} {p : Port}

/-- A candidate with its rank for a port, as `State.best` compares it. -/
def atRank (s : State) (p : Port) (x : Cand) : Nat × Cand := (s.rankOf p x, x)

/-- Standing before another for one port is having the smaller key at the ranks for that port. -/
theorem standsBefore_rankOf_iff {x y : Cand} :
    standsBefore (s.rankOf p x) x (s.rankOf p y) y = true ↔ orderKey (atRank s p x) < orderKey (atRank s p y) :=
  standsBefore_iff (x := atRank s p x) (y := atRank s p y)

theorem best_eq_none_iff {xs : List Cand} : s.best p xs = none ↔ xs = [] := by
  rw [State.best, Option.map_eq_none_iff, firstRanked_eq_none_iff, List.map_eq_nil_iff]

theorem best_least {xs : List Cand} {x : Cand} (h : s.best p xs = some x) :
    x ∈ xs ∧ ∀ y ∈ xs, orderKey (atRank s p x) ≤ orderKey (atRank s p y) := by
  rw [State.best, Option.map_eq_some_iff] at h
  obtain ⟨r, hfirst, rfl⟩ := h
  obtain ⟨hmem, hleast⟩ := firstRanked_least hfirst
  obtain ⟨z, hz, rfl⟩ := List.mem_map.mp hmem
  exact ⟨hz, fun y hy => hleast _ (List.mem_map_of_mem hy)⟩

/-- The fit term of a local copy is 0 at every port, so no term of its rank looks at the port (R88). -/
theorem rankOf_local {x : Cand} (h : x.copy.station = 0) (p q : Port) : s.rankOf p x = s.rankOf q x := by
  have hlocal : x.copy.isLocal = true := beq_iff_eq.mpr h
  simp only [State.rankOf, State.rankTerms, hlocal, if_true]

end Sys2Proof.Ranking
end

section
/-! PROOF. The statements about ranking (R89, R90, R91). -/
namespace Sys2Proof.Ranking

open Sys2Proof.Machine

/-- Settles O15: each rank lies in its band by the clamp, and the band of a higher precedence begins above the end of a lower one's. -/
theorem rankStaysInItsBand : Obligations.RankStaysInItsBand := by
  refine ⟨rank_mem_band, fun s m n c d p h => ?_⟩
  calc (s.rankTerms n d p).rank
      ≤ rankBase n.prec + 999 := (rank_mem_band s n d p).2
    _ < rankBase m.prec := band_below h
    _ ≤ (s.rankTerms m c p).rank := (rank_mem_band s m c p).1

/-- Settles O16: the bounds of the raw score from the ranges of the three terms, and the rank from its integer equation, case by case
of the clamp. -/
theorem rankIsBasePlusClampedScore : Obligations.RankIsBasePlusClampedScore := by
  intro s m c p t
  have hraw : t.raw = (t.aging : Int) - t.penalty + t.fit := raw_eq s m c p
  have hrank : (t.rank : Int) = rankBase m.prec + max 0 (min 999 t.raw) := rank_eq s m c p
  refine ⟨hraw, fun haging hpenalty hfit hattempts hgrade => ?_, clamped_iff s m c p, fun hlow => ?_, fun hhigh => ?_,
    fun hlow hhigh => ?_, rfl, rfl, rfl, rfl⟩
  · have : t.aging ≤ 14985 := aging_le s m c p haging
    have : t.penalty ≤ 3825 := penalty_le s m c p hattempts hpenalty
    have : t.fit ≤ 300 := fit_le s m c p hgrade hfit
    omega
  · omega
  · omega
  · omega

/-- Settles O17: standing before is the strict order of the keys, a linear order. -/
theorem copyOrderIsTotal : Obligations.CopyOrderIsTotal := by
  intro s p
  simp only [standsBefore_rankOf_iff]
  refine ⟨fun x y hrank => ?_, fun x y hrank hseq => ?_, fun x y hrank hseq hindex => ?_,
    fun x y hrank hseq hindex hnumber => ?_, fun x => lt_irrefl _, fun x y z => lt_trans, fun x y hne => ?_,
    fun xs x hbest => ?_, fun xs => best_eq_none_iff, fun x q hlocal => rankOf_local hlocal p q⟩
  · exact orderKey_lt_iff.mpr (.inl hrank)
  · exact orderKey_lt_iff.mpr (.inr ⟨hrank, .inl hseq⟩)
  · exact orderKey_lt_iff.mpr (.inr ⟨hrank, .inr ⟨hseq, .inl hindex⟩⟩)
  · exact orderKey_lt_iff.mpr (.inr ⟨hrank, .inr ⟨hseq, .inr ⟨hindex, hnumber⟩⟩⟩)
  · refine lt_or_gt_of_ne fun hkey => ?_
    obtain ⟨hnumber, hindex⟩ := same_copy_of_orderKey_eq hkey
    exact hne.elim (· hnumber) (· hindex)
  · obtain ⟨hmem, hleast⟩ := best_least hbest
    exact ⟨hmem, fun y hy => not_lt.mpr (hleast y hy)⟩

end Sys2Proof.Ranking
end

section
/-! PROOF. Pairs: what each side of R99 asks, and the candidates of the store (R98 to R100). -/
namespace Sys2Proof.Pairing

open Sys2Proof.Machine

/-! ### The conditions on a message and a copy -/

theorem isFiled_iff {m : Message} : m.isFiled = true ↔ ∃ f, m.phase = .filed f := by
  cases h : m.phase <;> simp [Message.isFiled, h]

theorem heldFor_iff {c : Copy} {k : Port} : c.heldFor k = true ↔ ∃ ends, c.state = some (.heldFor k ends) := by
  rw [Copy.heldFor]
  split
  next p ends hstate => simp [hstate]
  next hother => simpa using fun ends => hother k ends

/-! ### The conditions on a channel -/

variable {s : State} {k : Port}

/-- The channel's side of R99: the standing ask is open, whatever its filter. -/
theorem openToGrants_iff :
    s.openToGrants k = true ↔
      s.roles.get k = .channel ∧ (∃ count filter, (s.channels.get k).state = .asking count filter ∧ 0 < count)
        ∧ (s.admin.get k = .none_ ∨ s.admin.get k = .step) := by
  cases h : (s.channels.get k).state with
  | asking count filter =>
    simp [State.openToGrants, State.isChannel, h, Nat.pos_iff_ne_zero, and_assoc]
  | closed | ready | lapsed => simp [State.openToGrants, h]

/-- An ask admits a station when it has no filter or names the station; a channel that does not ask admits none (R98). -/
theorem askAdmits_iff {station : Nat} :
    s.askAdmits k station = true ↔
      ∃ count filter, (s.channels.get k).state = .asking count filter ∧ (filter = none ∨ filter = some station) := by
  cases h : (s.channels.get k).state with
  | asking count filter => cases filter <;> simp [State.askAdmits, h]
  | closed | ready | lapsed => simp [State.askAdmits, h]

/-- The channel's side and the filter speak of one ask, since a channel has at most one. -/
theorem open_and_admits_iff {station : Nat} :
    s.openToGrants k = true ∧ s.askAdmits k station = true ↔
      s.roles.get k = .channel ∧ ∃ count filter, (s.channels.get k).state = .asking count filter ∧ 0 < count
        ∧ (s.admin.get k = .none_ ∨ s.admin.get k = .step)
        ∧ (filter = none ∨ filter = some station) := by
  rw [openToGrants_iff, askAdmits_iff]
  constructor
  · rintro ⟨⟨hrole, ⟨count, filter, hask, hcount⟩, hadmin⟩, _, _, hsame, hfilter⟩
    obtain ⟨rfl, rfl⟩ := ChanState.asking.inj (hask.symm.trans hsame)
    exact ⟨hrole, count, filter, hask, hcount, hadmin, hfilter⟩
  · rintro ⟨hrole, count, filter, hask, hcount, hadmin, hfilter⟩
    exact ⟨⟨hrole, ⟨count, filter, hask, hcount⟩, hadmin⟩, count, filter, hask, hfilter⟩

/-- The copy's side of R99, with the filter of the ask left to `askAdmits_iff`. -/
theorem fits_iff {m : Message} {c : Copy} :
    s.fits k m c = true ↔
      (∃ f, m.phase = .filed f) ∧ c.station ≠ 0 ∧ (c.state = some .waiting ∨ ∃ ends, c.state = some (.heldFor k ends))
        ∧ 1 ≤ s.grade c.station k ∧ (c.pinned = none ∨ c.pinned = some k)
        ∧ s.askAdmits k c.station = true ∧ c.attempts < s.limit m.prec := by
  simp only [State.fits, Copy.isLocal, Bool.and_eq_true, Bool.or_eq_true, Bool.not_eq_true', beq_eq_false_iff_ne, beq_iff_eq,
    bne_iff_ne, decide_eq_true_eq, isFiled_iff, heldFor_iff, Nat.one_le_iff_ne_zero, ne_eq, and_assoc]

/-! ### The candidates of the store -/

/-- A candidate is a copy in its place in a message of the store that meets the condition. -/
theorem mem_cands_iff {ok : Message → Copy → Bool} {x : Cand} :
    x ∈ s.cands ok ↔ x.msg ∈ s.store ∧ x.msg.copies[x.index]? = some x.copy ∧ ok x.msg x.copy = true := by
  simp only [State.cands, List.mem_flatMap, List.mem_map, List.mem_filter]
  constructor
  · rintro ⟨m, hm, ci, ⟨hplace, hok⟩, rfl⟩
    exact ⟨hm, List.mem_zipIdx_iff_getElem?.mp hplace, hok⟩
  · rintro ⟨hm, hplace, hok⟩
    exact ⟨x.msg, hm, (x.copy, x.index), ⟨List.mem_zipIdx_iff_getElem?.mpr hplace, hok⟩, rfl⟩

theorem mem_pairsOf_iff {x : Cand} :
    x ∈ s.pairsOf k ↔
      s.openToGrants k = true ∧ x.msg ∈ s.store ∧ x.msg.copies[x.index]? = some x.copy ∧ s.fits k x.msg x.copy = true := by
  rw [State.pairsOf, List.mem_ite_nil_right, mem_cands_iff]

end Sys2Proof.Pairing
end

section
/-! PROOF. The statement about pairs (R99). -/
namespace Sys2Proof.Pairing

open Sys2Proof.Machine

/-- Settles O19: a pair is a candidate of an open channel that fits it, and each side is its conditions. -/
theorem pairsMeetTheSevenConditions : Obligations.PairsMeetTheSevenConditions := by
  intro s k x
  rw [mem_pairsOf_iff, fits_iff, ← open_and_admits_iff]
  constructor
  · rintro ⟨hopen, hmem, hplace, hfiled, hstation, hstate, hgrade, hpinned, hadmits, hattempts⟩
    exact ⟨⟨hopen, hadmits⟩, hmem, hplace, hfiled, hstation, hstate, hgrade, hpinned, hattempts⟩
  · rintro ⟨⟨hopen, hadmits⟩, hmem, hplace, hfiled, hstation, hstate, hgrade, hpinned, hattempts⟩
    exact ⟨hopen, hmem, hplace, hfiled, hstation, hstate, hgrade, hpinned, hadmits, hattempts⟩

end Sys2Proof.Pairing
end

section
/-! PROOF. Link faults: a fault said whole, and the arrivals in IN_FRAME that cause one (R158, R160, R167). -/
namespace Sys2Proof.PortUnit

open Sys2Proof.Machine

/-! ### What a fault does -/

variable {s : State} {p : Port}

theorem role_ne_off_of_hears (hears : s.hears p = true) : s.roles.get p ≠ .off := by
  simp only [State.hears, Bool.and_eq_true, bne_iff_ne] at hears
  exact hears.2

/-- Every role but OFF can receive LINK_FAULT (R168). -/
theorem linkFault_routed {r : Role} (h : r ≠ .off) : eventBit .linkFault &&& routedSet r = eventBit .linkFault := by
  cases r with
  | off => exact absurd rfl h
  | console | intake | channel => decide

theorem statusAt_single (k : EventKind) : s.statusAt k (· == p) = s.statusWith k p :=
  PerPort.ext_get fun q => by
    by_cases h : q = p
    · simp [State.statusAt, State.statusWith, h]
    · simp [State.statusAt, State.statusWith, h, PerPort.get_set_ne]

theorem raiseAt_linkFault_status (hears : s.hears p = true) :
    (s.raiseAt .linkFault p).status = s.statusWith .linkFault p := by
  rw [← statusAt_single]
  refine State.raiseWhere_statusAt fun q hq => ?_
  rw [beq_iff_eq.mp hq]
  exact linkFault_routed (role_ne_off_of_hears hears)

/-- A fault at a port that is heard, whole: the event, the count, and in the Port Unit the last fault and the receiver alone, so that the
request in service and the held frame stand. -/
theorem faultTo_eq (hears : s.hears p = true) (cause : LinkCause) (after : Receiver) :
    s.faultTo p cause after = { s with
      status := s.statusWith .linkFault p
      counters := s.countersWith p fun c => { c with discarded := min (c.discarded + 1) 65535 }
      units := s.units.set p { s.units.get p with receiver := after, lastFault := cause } } := by
  rw [← raiseAt_linkFault_status hears]
  simp [State.faultTo, State.setReceiver, State.linkFault, State.updUnit, State.updCounters, State.countersWith, bump, State.raiseAt,
    State.raiseWhere]

/-! ### The arrivals on a line that is heard -/

/-- A line that is heard hands its arrival to the receiver, and the event closes. -/
theorem arrival_of_hears (hears : s.hears p = true) (f : State → State) : arrival s p f = .next (f s).finish := if_pos hears

theorem exec_frameGapExpiry (hears : s.hears p = true) : exec (.frameGapExpiry p) s = .next (s.receiveGap p).finish :=
  arrival_of_hears hears fun t => t.receiveGap p

theorem exec_framingError (hears : s.hears p = true) : exec (.framingError p) s = .next (s.receiveFraming p).finish :=
  arrival_of_hears hears fun t => t.receiveFraming p

theorem exec_lineBreak (hears : s.hears p = true) : exec (.lineBreak p) s = .next (s.receiveBreak p).finish :=
  arrival_of_hears hears fun t => t.receiveBreak p

theorem exec_receiveCharacter (hears : s.hears p = true) (b : Byte) :
    exec (.receiveCharacter p b) s = .next (s.receive p b).finish :=
  arrival_of_hears hears fun t => t.receive p b

/-! ### The receiver in IN_FRAME: the rows of the table -/

variable {length : Option Nat} {got : List Byte} {b : Byte}

theorem receiveGap_inFrame (inFrame : (s.units.get p).receiver = .inFrame length got) :
    s.receiveGap p = s.faultTo p .gap .hunting := by
  simp only [State.receiveGap, inFrame]

theorem receiveFraming_inFrame (inFrame : (s.units.get p).receiver = .inFrame length got) :
    s.receiveFraming p = s.faultTo p .framing (.resync false) := by
  simp only [State.receiveFraming, inFrame]

theorem receiveBreak_inFrame (inFrame : (s.units.get p).receiver = .inFrame length got) :
    s.receiveBreak p = s.faultTo p .lineBreak (.resync true) := by
  simp only [State.receiveBreak, inFrame]

/-- The first character after the start mark is a length, tested as soon as it is received (R158). -/
theorem receive_length (awaitsLength : (s.units.get p).receiver = .inFrame none got) :
    s.receive p b =
      if b.toNat ≤ 1 then s.faultTo p .runt .hunting
      else if 96 < b.toNat then s.faultTo p .length (.resync false)
      else s.setReceiver p (.inFrame (some b.toNat) []) := by
  simp only [State.receive, awaitsLength]

theorem receive_runt (awaitsLength : (s.units.get p).receiver = .inFrame none got) (hb : b.toNat ≤ 1) :
    s.receive p b = s.faultTo p .runt .hunting := by
  rw [receive_length awaitsLength, if_pos hb]

theorem receive_tooLong (awaitsLength : (s.units.get p).receiver = .inFrame none got) (hb : 96 < b.toNat) :
    s.receive p b = s.faultTo p .length (.resync false) := by
  rw [receive_length awaitsLength, if_neg (by omega), if_pos hb]

end Sys2Proof.PortUnit
end

section
/-! PROOF. The statement about link faults (R160). -/
namespace Sys2Proof.PortUnit

open Sys2Proof.Machine

/-- Settles O7: each arrival of the table runs one fault, which is said once whatever its cause, and closes the event. -/
theorem linkFaultsFollowTheTable : Obligations.LinkFaultsFollowTheTable := by
  intro p s length got hears inFrame faults
  have fault_taken {i : Instr} {t : State} {cause : LinkCause} {after : Receiver}
      (hexec : exec i s = .next t.finish) (hfault : t = s.faultTo p cause after) : faults i cause after := by
    rw [faultTo_eq hears] at hfault
    subst hfault
    exact ⟨_, hexec, State.finish_behind _, State.finish_lineEvent rfl⟩
  refine ⟨fault_taken (exec_frameGapExpiry hears) (receiveGap_inFrame inFrame),
    fault_taken (exec_framingError hears) (receiveFraming_inFrame inFrame),
    fault_taken (exec_lineBreak hears) (receiveBreak_inFrame inFrame), ?_⟩
  rintro rfl b
  exact ⟨fun hb => fault_taken (exec_receiveCharacter hears b) (receive_runt inFrame hb),
    fun hb => fault_taken (exec_receiveCharacter hears b) (receive_tooLong inFrame hb)⟩

end Sys2Proof.PortUnit
end

section
/-! PROOF. How a request is served (R162 to R164): the frame of a command brings it to its owning block, and an owning block's answer
without an effect on the lines stands as the reply at its port. The values of request fields come after (R185). -/
namespace Sys2Proof.Machine

/-! ### A request and its frame -/

/-- A request command is the arrival of its frame, served by its owning block. -/
theorem exec_request {i : Instr} {p : Port} {f : Frame} (h : i.toFrame = some (p, f)) (s : State) :
    exec i s = submit s p f (serveRequest i) := by
  cases i <;> cases h <;> rfl

theorem hears_of_freeAt {s : State} {p : Port} (h : s.freeAt p = true) : s.hears p = true := by
  simp only [State.freeAt, Bool.and_eq_true] at h; exact h.1

theorem serviceOf_of_freeAt {s : State} {p : Port} (h : s.freeAt p = true) : s.serviceOf p = none := by
  simp only [State.freeAt, Bool.and_eq_true, Option.isNone_iff_eq_none] at h; exact h.2

theorem inService_of_hears {s : State} {p : Port} (h : s.hears p = true) : s.inService = true := by
  simp only [State.hears, Bool.and_eq_true] at h; exact h.1

/-- The kinds below 0x20 are open to every role of a port that is heard (R163). -/
theorem mayUse_of_hears {s : State} {p : Port} (h : s.hears p = true) {kind : Byte} (hk : kind.toNat < 0x20) :
    mayUse (s.roles.get p) kind = true := by
  have hoff := PortUnit.role_ne_off_of_hears h
  cases hr : s.roles.get p with
  | off => exact absurd hr hoff
  | channel => simp only [mayUse, decide_eq_true_eq]; omega
  | console | intake => simp [mayUse, hk]

theorem isRequestKind_iff {kind : Byte} : isRequestKind kind = true ↔ kind ∈ requestKinds := by
  simp only [isRequestKind, List.contains_iff_mem]

/-- The kinds of requests are open to the roles that the table names for them (the first table of R163). -/
theorem mayUse_iff_mem_sendersOf {r : Role} {kind : Byte} (hk : isRequestKind kind = true) :
    mayUse r kind = true ↔ r ∈ sendersOf kind := by
  rw [isRequestKind_iff] at hk
  revert kind
  cases r <;> decide

/-! ### The reply to a request -/

/-- `t` follows the command `i` at port `p`, whose frame is `f`: the owning block left the state behind the lines as that of `u`, and its
result and fields stand at the port. -/
def Answered (i : Instr) (s : State) (p : Port) (f : Frame) (u : State) (r : Result) (fields : List Byte) : Prop :=
  ∃ t, exec i s = .next t ∧ t.behind = u.behind ∧ t.answers s p f r fields

/-- A request that passes the tests of its free port is answered as its owning block says. -/
theorem answered_of_serve {i : Instr} {p : Port} {f : Frame} {s u : State} {r : Result} {fields : List Byte}
    (hi : i.toFrame = some (p, f)) (hfree : s.freeAt p = true) (hkind : isRequestKind f.kind = true)
    (hrole : mayUse (s.roles.get p) f.kind = true) (hlength : fieldLengthOk f.kind f.fields.length = true)
    (hserve : serveRequest i s = u.answer r fields) (hunits : u.units = s.units) : Answered i s p f u r fields := by
  obtain ⟨t, ht, hbehind, hanswers⟩ := submit_served (serve := serveRequest i) (r := r) (fields := fields) hfree hkind hrole hlength
    (by rw [hserve]; exact hunits) (by rw [hserve]; rfl)
  exact ⟨t, by rw [exec_request hi, ht], by rw [hbehind, hserve]; rfl, hanswers⟩

/-! ### The values of request fields (R185) -/

theorem numberOf_eq_none {h : Half} (hn : h.toNat = 0 ∨ 9999 < h.toNat) : numberOf h = none :=
  if_neg (show ¬(1 ≤ h.toNat ∧ h.toNat ≤ 9999) by omega)

theorem numberOf_eq_some {h : Half} (h1 : 1 ≤ h.toNat) (h2 : h.toNat ≤ 9999) : numberOf h = some h.toNat := if_pos ⟨h1, h2⟩

theorem numberOf_eq_some_iff {h : Half} {n : Nat} : numberOf h = some n ↔ n = h.toNat ∧ 1 ≤ n ∧ n ≤ 9999 := by
  rw [numberOf, Option.ite_none_right_eq_some]
  constructor
  · rintro ⟨h12, hn⟩; cases hn; exact ⟨rfl, h12⟩
  · rintro ⟨rfl, h12⟩; exact ⟨h12, rfl⟩

theorem indexOf_eq_none {b : Byte} (h : 7 < b.toNat) : indexOf b = none := if_neg (by omega)

theorem indexOf_eq_some {b : Byte} (h : b.toNat ≤ 7) : indexOf b = some b.toNat := if_pos h

/-- The codes of ports are their places in rising order. -/
theorem portOf_eq (b : Byte) : portOf b = Port.all[b.toNat]? := by
  by_cases h : b.toNat < 6
  · have key : ∀ n : Nat, n < 6 → portOf (BitVec.ofNat 8 n) = Port.all[n]? := by decide
    simpa using key b.toNat h
  · have hlen : Port.all[b.toNat]? = none := List.getElem?_eq_none_iff.mpr (show 6 ≤ b.toNat by omega)
    rw [hlen, portOf]
    split <;> first | rfl | omega

theorem portOf_eq_none {b : Byte} (h : 5 < b.toNat) : portOf b = none := by
  rw [portOf_eq]; exact List.getElem?_eq_none_iff.mpr h

end Sys2Proof.Machine
end

section
/-! PROOF. The reading requests: what each answers, from the state as it stands (R53, R95, R146 to R153, R186, R187). -/
namespace Sys2Proof.Machine

/-! ### The layouts of the records -/

theorem isOpen_iff {m : Message} : m.isOpen = true ↔ m.phase = .opened := by simp [Message.isOpen]

theorem callAt_eq (s : State) (e : Nat) :
    s.callAt e = match s.station e with | some st => st.call | none => List.replicate 7 0x20 := by
  rw [State.callAt]; cases s.station e <;> rfl

/-- The header of a message by its phase (R186). -/
theorem headerBytes_eq (s : State) (m : Message) (i : Nat) :
    s.headerBytes m i = be32 s.clock ++ be16 m.number ++ be8 (phaseCode m.phase) ++ be8 (precCode m.prec) ++ m.origin ++ be16 m.serial
      ++ be16 m.wordCheck ++ be8 (portNumber m.lodgedAt) ++ be16 m.body.length ++ be8 m.chain.length ++ be32 m.openStamp
      ++ be8 m.copies.length
      ++ (match m.phase with
          | .opened => be8 0 ++ be16 0 ++ be8 0 ++ be32 0 ++ be32 0 ++ be32 0
          | .filed f => be8 1 ++ be16 f.wordCount ++ be8 f.checkDiffers.toNat ++ be32 f.filedStamp ++ be32 f.sequence ++ be32 0
          | .closed f t => be8 3 ++ be16 f.wordCount ++ be8 f.checkDiffers.toNat ++ be32 f.filedStamp ++ be32 f.sequence ++ be32 t)
      ++ be8 (if i + 2 < m.copies.length then i + 2 else 0xFF) ++ be8 (min 2 (m.copies.length - i)) := by
  have hcount : (m.twoCopies i).length = min 2 (m.copies.length - i) := by simp [Message.twoCopies]
  rw [State.headerBytes, hcount]
  cases h : m.phase <;> simp [Message.filing, Message.closedStamp, h, filingBytes, beFlag]

/-- The record of a copy by its state (R186). -/
theorem copyBytes_eq (s : State) (c : Copy) (i : Nat) :
    s.copyBytes c i = be8 i ++ be8 c.station ++ (match s.station c.station with | some st => st.call | none => List.replicate 7 0x20)
      ++ be8 (match c.state with | some x => copyCode x | none => 0xFF) ++ be8 c.attempts
      ++ be8 (c.uncertain.toNat + 2 * match c.state with
          | some (.delivered _ _ after) | some (.relayed _ _ after _) => after.toNat
          | _ => 0)
      ++ (match c.state with
          | some (.heldFor k t) => be8 (4 + 2 * c.pinned.isSome.toNat) ++ be8 0xFF ++ bePort c.pinned ++ be8 (portNumber k) ++ be32 t
              ++ be8 0xFF ++ be32 0 ++ List.replicate 7 0x20
          | some (.taken k) | some (.withdrawing k) => be8 (1 + 2 * c.pinned.isSome.toNat) ++ be8 (portNumber k) ++ bePort c.pinned
              ++ be8 0xFF ++ be32 0 ++ be8 0xFF ++ be32 0 ++ List.replicate 7 0x20
          | some (.delivered k t _) => be8 (8 + 2 * c.pinned.isSome.toNat) ++ be8 0xFF ++ bePort c.pinned ++ be8 0xFF ++ be32 0
              ++ be8 (portNumber k) ++ be32 t ++ List.replicate 7 0x20
          | some (.relayed k t _ relay) => be8 (24 + 2 * c.pinned.isSome.toNat) ++ be8 0xFF ++ bePort c.pinned ++ be8 0xFF ++ be32 0
              ++ be8 (portNumber k) ++ be32 t ++ relay
          | _ => be8 (2 * c.pinned.isSome.toNat) ++ be8 0xFF ++ bePort c.pinned ++ be8 0xFF ++ be32 0 ++ be8 0xFF ++ be32 0
              ++ List.replicate 7 0x20) := by
  have hblank : blankCall = List.replicate 7 0x20 := rfl
  rw [State.copyBytes, callAt_eq]
  cases h : c.state with
  | none => simp [Copy.code, Copy.holder, h, copyStateBytes, hblank, bePort]
  | some x =>
    cases x <;> simp [Copy.code, Copy.holder, CopyState.holder, CopyState.afterCancel, CopyState.presence, h, copyStateBytes, hblank,
      bePort, Nat.add_comm]

/-- One copy is returned at the last index, two before it (R147). -/
theorem twoCopies_eq {m : Message} {i : Nat} {c : Copy} (h : m.copies[i]? = some c) :
    m.twoCopies i = (c, i) :: (m.copies[i + 1]?.map (·, i + 1)).toList := by
  obtain ⟨hi, hc⟩ := List.getElem?_eq_some_iff.mp h
  have hz : i < m.copies.zipIdx.length := by simpa using hi
  rw [Message.twoCopies, List.drop_eq_getElem_cons hz, List.take_succ_cons]
  congr 1
  · simp [hc]
  · cases h1 : m.copies[i + 1]? with
    | none =>
      rw [List.getElem?_eq_none_iff] at h1
      rw [List.drop_eq_nil_of_le (by simpa using h1)]
      rfl
    | some d =>
      obtain ⟨hi1, hd⟩ := List.getElem?_eq_some_iff.mp h1
      rw [List.drop_eq_getElem_cons (by simpa using hi1), List.take_succ_cons, List.take_zero]
      simp [hd]

/-- Settles O10: the two tests of fields, then the message and its first copy; the layouts are said once, by phase and by copy state. -/
theorem headerReplyCarriesTwoCopies : Obligations.HeaderReplyCarriesTwoCopies := by
  intro p tag first number s hfree answered header blank copy
  have hrole : mayUse (s.roles.get p) 0x04 = true := mayUse_of_hears (hears_of_freeAt hfree) (by decide)
  have answer {r : Result} {fields : List Byte} (h : serveReadHeader number first s = s.answer r fields) : answered r fields :=
    answered_of_serve (i := .readHeader p tag number first) rfl hfree rfl hrole rfl h rfl
  refine ⟨fun hbad => answer ?_, fun h1 h2 h3 hnone => answer ?_, fun m h1 h2 h3 hm => ?_⟩
  · rcases or_assoc.mpr hbad with hn | hi
    · simp [serveReadHeader, numberOf_eq_none hn]
    · simp [serveReadHeader, indexOf_eq_none hi]
  · simp [serveReadHeader, numberOf_eq_some h1 h2, indexOf_eq_some h3, hnone]
  · have hserve : serveReadHeader number first s = if m.copies.length ≤ first.toNat then s.answer .noSuch
        else s.answer .ok (s.headerBytes m first.toNat ++ (m.twoCopies first.toNat).flatMap fun ci => s.copyBytes ci.1 ci.2) := by
      simp [serveReadHeader, numberOf_eq_some h1 h2, indexOf_eq_some h3, hm]
    refine ⟨fun hlen => answer (by rw [hserve, if_pos hlen]), fun c hc => ?_⟩
    obtain ⟨hi, -⟩ := List.getElem?_eq_some_iff.mp hc
    rw [if_neg (by omega), twoCopies_eq hc] at hserve
    have hheader : s.headerBytes m first.toNat = header m first.toNat := headerBytes_eq s m first.toNat
    have hcopy (d : Copy) (j : Nat) : s.copyBytes d j = copy d j := copyBytes_eq s d j
    refine ⟨fun hnone => answer ?_, fun d hd => answer ?_⟩
    · rw [hserve, hnone, hheader]; simp [hcopy]
    · rw [hserve, hd, hheader]; simp [hcopy]

/-- Settles O11: the chunk is what stands between the offset and 48 bytes on, and it reaches the end when nothing is left behind it. -/
theorem bodyIsReadInChunks : Obligations.BodyIsReadInChunks := by
  intro p tag number offset s hfree answered
  have hrole : mayUse (s.roles.get p) 0x05 = true := mayUse_of_hears (hears_of_freeAt hfree) (by decide)
  have answer {r : Result} {fields : List Byte} (h : serveReadBody number offset s = s.answer r fields) : answered r fields :=
    answered_of_serve (i := .readBody p tag number offset) rfl hfree rfl hrole rfl h rfl
  refine ⟨fun hbad => answer ?_, fun h1 h2 hnone => answer ?_, fun m h1 h2 hm => ?_⟩
  · simp [serveReadBody, numberOf_eq_none hbad]
  · simp [serveReadBody, numberOf_eq_some h1 h2, hnone]
  · have hserve : serveReadBody number offset s = if m.isOpen then s.answer .state
        else if m.body.length < offset.toNat then s.answer .badField
        else s.answer .ok (be32 s.clock ++ be16 offset.toNat ++ be16 m.body.length ++ be32 m.sequence
          ++ beFlag (offset.toNat + ((m.body.drop offset.toNat).take 48).length == m.body.length) ++ (m.body.drop offset.toNat).take 48) := by
      simp [serveReadBody, numberOf_eq_some h1 h2, hm]
    refine ⟨fun hopen => answer ?_, fun hopen hpast => answer ?_, fun before chunk after hopen hbody hbefore hchunk => answer ?_⟩
    · rw [hserve, if_pos (isOpen_iff.mpr hopen)]
    · rw [hserve, if_neg (mt isOpen_iff.mp hopen), if_pos hpast]
    · have htaken : (m.body.drop offset.toNat).take 48 = chunk := by
        rw [hbody, List.append_assoc, List.drop_left' hbefore]
        rcases hchunk with h48 | ⟨h48, hafter⟩
        · exact List.take_left' h48
        · rw [hafter, List.append_nil, List.take_of_length_le h48]
      have hlength : m.body.length = offset.toNat + chunk.length + after.length := by
        rw [hbody, List.length_append, List.length_append, hbefore]
      have hend : beFlag (offset.toNat + chunk.length == m.body.length) = be8 (if after = [] then 1 else 0) := by
        by_cases hafter : after = []
        · simp [beFlag, hlength, hafter]
        · have : after.length ≠ 0 := mt List.length_eq_zero_iff.mp hafter
          have hne : (offset.toNat + chunk.length == m.body.length) = false := by simp; omega
          simp [beFlag, hne, hafter]
      rw [hserve, if_neg (mt isOpen_iff.mp hopen), if_neg (by omega), htaken, hend]

/-- Settles O12: the sets of the request select as R149 says, and the reply counts what it shows. -/
theorem trafficIsListedEightAtATime : Obligations.TrafficIsListedEightAtATime := by
  intro p tag after states precs copies s hfree f answered found
  have hrole : mayUse (s.roles.get p) 0x06 = true := mayUse_of_hears (hears_of_freeAt hfree) (by decide)
  have answer {r : Result} {fields : List Byte} (h : serveListTraffic after states precs copies s = s.answer r fields) :
      answered r fields :=
    answered_of_serve (i := .listTraffic p tag after states precs copies) rfl hfree rfl hrole rfl h rfl
  have hfound : (s.store.filter fun m => after.toNat < m.number && listMatches states precs copies m) = found := by
    refine List.filter_congr fun m _ => ?_
    have hcopy : (fun c : Copy => (c.state.map fun x => hasBit copies (copyCode x)).getD false)
        = fun c => match c.state with | some x => copies.getLsbD (copyCode x) | none => false := by
      funext c; cases c.state <;> rfl
    simp only [listMatches, hasBit, Bool.and_assoc] at hcopy ⊢
    rw [hcopy] <;> rfl
  have hmax : Config.numberMax = 9999 := rfl
  refine ⟨fun hbad => answer ?_, fun h1 h2 h3 => answer ?_⟩
  · rw [serveListTraffic, if_pos]
    simp only [maskBelow, Bool.or_eq_true, Bool.not_eq_true', decide_eq_true_eq, decide_eq_false_iff_not]
    omega
  · rw [serveListTraffic, if_neg]
    · simp only [hfound, List.length_take, beFlag]
      congr 2
      by_cases h8 : 8 < found.length <;> simp [h8]
    · simp only [maskBelow, Bool.or_eq_true, Bool.not_eq_true', decide_eq_true_eq, decide_eq_false_iff_not]
      omega

/-- Settles O14: the tests of fields, the copy, and the terms as the rank computation has them. -/
theorem rankQueryShowsTheTerms : Obligations.RankQueryShowsTheTerms := by
  intro p tag index port number s hfree answered
  have hrole : mayUse (s.roles.get p) 0x0A = true := mayUse_of_hears (hears_of_freeAt hfree) (by decide)
  have answer {r : Result} {fields : List Byte} (h : serveRankQuery number index port s = s.answer r fields) : answered r fields :=
    answered_of_serve (i := .rankQuery p tag number index port) rfl hfree rfl hrole rfl h rfl
  refine ⟨fun hbad => answer ?_, fun k h1 h2 h3 hk => ⟨fun hnone => answer ?_, fun m c hm hc => ⟨fun hopen => answer ?_, fun hopen => ?_⟩⟩⟩
  · rcases or_assoc.mpr hbad with hn | hi | hk
    · simp [serveRankQuery, numberOf_eq_none hn]
    · simp [serveRankQuery, indexOf_eq_none hi]
    · simp [serveRankQuery, portOf_eq_none hk]
  · simp only [serveRankQuery, numberOf_eq_some h1 h2, indexOf_eq_some h3, hk]
    cases hm : s.findMsg number.toNat with
    | none => rfl
    | some m =>
      have hc : m.copies[index.toNat]? = none := by simpa [State.copyAt, hm] using hnone
      simp only [hc]
  · simp [serveRankQuery, numberOf_eq_some h1 h2, indexOf_eq_some h3, hk, hm, hc, isOpen_iff.mpr hopen]
  · intro grade age aging penalty fit raw
    have hserve : serveRankQuery number index port s = s.answer .ok (s.rankBytes m c k) := by
      simp [serveRankQuery, numberOf_eq_some h1 h2, indexOf_eq_some h3, hk, hm, hc, mt isOpen_iff.mp hopen]
    have hgrade : (if c.isLocal then 0 else s.grade c.station k) = grade := by simp [Copy.isLocal, grade]
    have hbase : rankBase m.prec = 3000 - 1000 * precCode m.prec := by cases m.prec <;> rfl
    have hterms : s.rankTerms m c k
        = ⟨grade, age, aging, penalty, fit, raw, decide (raw < 0 ∨ 999 < raw), 3000 - 1000 * precCode m.prec + (min 999 raw).toNat⟩ := by
      have hclamp : (max 0 (min 999 raw)).toNat = (min 999 raw).toNat := by omega
      rw [State.rankTerms, hgrade, ← hclamp, ← hbase, Bool.decide_or]
      rfl
    have hflag : beFlag (decide (raw < 0 ∨ 999 < raw)) = be8 (if raw < 0 ∨ 999 < raw then 1 else 0) := by
      by_cases h : raw < 0 ∨ 999 < raw <;> simp [beFlag, h]
    refine answer ?_
    rw [hserve, State.rankBytes, hterms, ← hflag]
    rfl

end Sys2Proof.Machine
end

section
/-! PROOF. The entries of the Station Book found by call sign, and the reports of stations, ports and lists (R53, R151 to R153, R185, R187). -/
namespace Sys2Proof.Machine

/-! ### An entry found by its call sign -/

theorem station_eq_some_iff {s : State} {e : Nat} {st : Station} : s.station e = some st ↔ s.book[e]? = some (some st) := by
  rw [State.station, Option.join_eq_some_iff]

/-- No entry in use holds a call sign that is not found. -/
theorem findCall_eq_none_iff {book : List (Option Station)} {c : Call} :
    findCall book c = none ↔ ∀ (e : Nat) (st : Station), book[e]? = some (some st) → st.call ≠ c := by
  rw [findCall, List.findIdx?_eq_none_iff]
  constructor
  · intro h e st hst hc
    simpa [hc] using h _ (List.mem_of_getElem? hst)
  · intro h x hx
    obtain ⟨e, he⟩ := List.mem_iff_getElem?.mp hx
    cases x with
    | none => rfl
    | some st => simpa using h e st he

/-- The entry found is the first in use that holds the call sign. -/
theorem findCall_eq_some_iff {book : List (Option Station)} {c : Call} {e : Nat} :
    findCall book c = some e ↔ (∃ st, book[e]? = some (some st) ∧ st.call = c)
      ∧ ∀ (e' : Nat) (st' : Station), e' < e → book[e']? = some (some st') → st'.call ≠ c := by
  rw [findCall, List.findIdx?_eq_some_iff_getElem]
  constructor
  · rintro ⟨he, hat, hbefore⟩
    refine ⟨?_, fun e' st' hlt hst' hc => ?_⟩
    · cases hx : book[e] with
      | none => simp [hx] at hat
      | some st => exact ⟨st, by rw [List.getElem?_eq_getElem he, hx], by simpa [hx] using hat⟩
    · have := hbefore e' hlt
      rw [List.getElem?_eq_getElem (by omega), Option.some.injEq] at hst'
      simp [hst', hc] at this
  · rintro ⟨⟨st, hst, hc⟩, hbefore⟩
    obtain ⟨he, hx⟩ := List.getElem?_eq_some_iff.mp hst
    refine ⟨he, by simp [hx, hc], fun e' hlt => ?_⟩
    cases hx' : book[e'] with
    | none => simp
    | some st' => simpa using hbefore e' st' hlt (by rw [List.getElem?_eq_getElem (by omega), hx'])

/-! ### The station record and STATUS -/

/-- The record of a station, field by field (R187). -/
theorem stationBytes_eq (s : State) (e : Nat) (st : Station) :
    s.stationBytes e st = be8 e ++ st.call ++ be8 (match st.kind with | .auto => 1 | .set => 2) ++ be32 st.created
      ++ (Port.all.flatMap fun k => be8 (st.grades.get k).value ++ be32 (st.grades.get k).touched)
      ++ be8 ((match st.affinity with | none => 0 | some a => if s.clock - a.stamp ≤ 1800 then 3 else 1) + if s.named e then 4 else 0)
      ++ (match st.affinity with | none => be8 0xFF ++ be32 0 | some a => be8 (portNumber a.port) ++ be32 a.stamp)
      ++ be8 st.waiting := by
  have hkind : kindCode (some st.kind) = match st.kind with | .auto => 1 | .set => 2 := by cases st.kind <;> rfl
  have hnamed : 4 * (s.named e).toNat = if s.named e then 4 else 0 := by cases s.named e <;> rfl
  have hgrades : gradesBytes st.grades = Port.all.flatMap fun k => be8 (st.grades.get k).value ++ be32 (st.grades.get k).touched := rfl
  rw [State.stationBytes, hkind, hnamed, hgrades]
  cases st.affinity with
  | none => simp [bePort]
  | some a =>
    have hcurrent : (a.current s.clock).toNat = if s.clock - a.stamp ≤ 1800 then 1 else 0 := by
      rw [Affinity.current]; split <;> simp_all
    by_cases h : s.clock - a.stamp ≤ 1800
    · rw [if_pos h] at hcurrent; simp [bePort, hcurrent, h]
    · rw [if_neg h] at hcurrent; simp [bePort, hcurrent, h]

theorem low_toNat (s : State) :
    s.low.toNat = if 128 - s.store.length ≤ 16 ∨ 2048 - (s.store.map fun m => m.chain.length).sum ≤ 256 then 1 else 0 := by
  by_cases h : 128 - s.store.length ≤ 16 ∨ 2048 - (s.store.map fun m => m.chain.length).sum ≤ 256
  · rw [if_pos h, show s.low = true by simpa [State.low, State.freeSlots, State.freeBlocks] using h]; rfl
  · rw [if_neg h, show s.low = false by simpa [State.low, State.freeSlots, State.freeBlocks] using h]; rfl

/-- The channel context in a STATUS reply (R187). -/
theorem channelBytes_eq (s : State) (p : Port) :
    s.channelBytes p = if s.roles.get p = .channel then
        be8 1 ++ be8 (chanCode (s.channels.get p).state) ++ be8 (adminCode (s.admin.get p)) ++ be8 (s.channels.get p).lapseCount
          ++ (match (s.channels.get p).state with | .asking n f => be8 n ++ beEntry f | _ => be8 0 ++ be8 0xFF)
          ++ be8 (match s.dispatch.tiers.get p with | .a => 0 | .b => 1) ++ be8 (s.dispatch.runs.get p)
      else 0 :: List.replicate 7 0xFF := by
  have htier : tierCode (s.dispatch.tiers.get p) = match s.dispatch.tiers.get p with | .a => 0 | .b => 1 := by
    cases s.dispatch.tiers.get p <;> rfl
  rw [State.channelBytes, htier]
  by_cases h : s.roles.get p = .channel
  · simp only [State.isChannel, h, beq_self_eq_true, if_true]
    cases hst : (s.channels.get p).state <;> simp [ChanState.count, ChanState.filter, beEntry]
  · simp only [State.isChannel, h, beq_iff_eq, if_false]; rfl

/-- The STATUS reply, field by field (R187). -/
theorem statusBytes_eq (s : State) (p : Port) :
    s.statusBytes p = be8 (portNumber p) ++ be8 (roleCode (s.roles.get p)) ++ be32 s.clock
      ++ be8 (match s.firstEvent p with | some k => eventOrder k | none => 0) ++ be16 (s.status.get p).toNat ++ be16 (s.enable.get p).toNat
      ++ be8 (faultCode (s.units.get p).lastFault) ++ be8 (128 - s.store.length) ++ be16 (2048 - (s.store.map fun m => m.chain.length).sum)
      ++ be8 ((if 128 - s.store.length ≤ 16 ∨ 2048 - (s.store.map fun m => m.chain.length).sum ≤ 256 then 1 else 0)
          + 2 * s.storeSet.autoPurge.toNat) ++ be16 s.storeSet.openTimeout
      ++ (match s.lodges.get p with | some l => be8 1 ++ be16 l.number ++ be32 l.deadline | none => be8 0 ++ be16 0 ++ be32 0)
      ++ be8 (s.lists.get p).length ++ be8 (match s.station 0 with | some st => st.waiting | none => 0) ++ be8 s.recovered
      ++ s.channelBytes p := by
  have hevent : eventCode (s.firstEvent p) = match s.firstEvent p with | some k => eventOrder k | none => 0 := by
    cases s.firstEvent p <;> rfl
  have hlodge : lodgeBytes (s.lodges.get p)
      = match s.lodges.get p with | some l => be8 1 ++ be16 l.number ++ be32 l.deadline | none => be8 0 ++ be16 0 ++ be32 0 := by
    cases s.lodges.get p <;> rfl
  have hwaiting : ((s.station 0).map Station.waiting).getD 0 = match s.station 0 with | some st => st.waiting | none => 0 := by
    cases s.station 0 <;> rfl
  rw [State.statusBytes, hevent, hlodge, hwaiting, low_toNat]
  simp only [beEvents, State.freeSlots, State.freeBlocks]

/-! ### The codes (R185) -/

/-- A decoding of a byte is the place in a list of its values, when it is so below the length of the list and nothing from there on. -/
theorem eq_getElem?_of_codes {α : Type} {g : Byte → Option α} {l : List α} (hin : ∀ n, n < l.length → g (BitVec.ofNat 8 n) = l[n]?)
    (hout : ∀ b : Byte, l.length ≤ b.toNat → g b = none) (b : Byte) : g b = l[b.toNat]? := by
  by_cases h : b.toNat < l.length
  · simpa using hin b.toNat h
  · rw [hout b (by omega), List.getElem?_eq_none_iff.mpr (by omega)]

theorem precOf_eq (b : Byte) : precOf b = ([.life, .priority, .welfare, .routine] : List Prec)[b.toNat]? := by
  refine eq_getElem?_of_codes (by decide) (fun b hb => ?_) b
  simp only [List.length_cons, List.length_nil] at hb
  rw [precOf]; split <;> first | rfl | omega

theorem outcomeOf_eq (b : Byte) : outcomeOf b = ([.delivered, .relayed, .noContact, .returned] : List ReportOutcome)[b.toNat]? := by
  refine eq_getElem?_of_codes (by decide) (fun b hb => ?_) b
  simp only [List.length_cons, List.length_nil] at hb
  rw [outcomeOf]; split <;> first | rfl | omega

theorem adminOf_eq (b : Byte) : adminOf b = ([.none_, .hold, .step, .bar] : List AdminMode)[b.toNat]? := by
  refine eq_getElem?_of_codes (by decide) (fun b hb => ?_) b
  simp only [List.length_cons, List.length_nil] at hb
  rw [adminOf]; split <;> first | rfl | omega

theorem annFnOf_eq (b : Byte) :
    annFnOf b = ([.off, .lifeOpen, .failedHeld, .lapsedAny, .storeLow, .noChannel, .on] : List AnnFn)[b.toNat]? := by
  refine eq_getElem?_of_codes (by decide) (fun b hb => ?_) b
  simp only [List.length_cons, List.length_nil] at hb
  rw [annFnOf]; split <;> first | rfl | omega

/-! ### The reports -/

/-- READ STATION: the index, then the entry (R53). -/
theorem serveReadStation_eq (s : State) (entry : Byte) :
    serveReadStation entry s = if 63 < entry.toNat then s.answer .badField else match s.station entry.toNat with
      | none => s.answer .noSuch
      | some st => s.answer .ok (s.stationBytes entry.toNat st) := by
  have hentries : Config.entries = 64 := rfl
  by_cases h : 63 < entry.toNat
  · rw [serveReadStation, if_pos h, if_pos (by omega)]
  · rw [serveReadStation, if_neg h, if_neg (by omega)] <;> rfl

/-- Settles O13: each report is the layout of the state as it stands; the codes are read off their tables. -/
theorem stationsPortsAndListsAreReported : Obligations.StationsPortsAndListsAreReported := by
  refine ⟨fun p tag s hfree => ?_, fun p tag s hfree => ?_, ?_⟩
  case refine_1 =>
    intro record
    refine ⟨?_, ?_⟩
    · intro entry answered
      have hrole : mayUse (s.roles.get p) 0x07 = true := mayUse_of_hears (hears_of_freeAt hfree) (by decide)
      have answer {r : Result} {fields : List Byte} (h : serveReadStation entry s = s.answer r fields) : answered r fields :=
        answered_of_serve (i := .readStation p tag entry) rfl hfree rfl hrole rfl h rfl
      rw [serveReadStation_eq] at answer
      refine ⟨fun hbad => answer (by rw [if_pos hbad]), fun hin hnone => answer (by rw [if_neg (by omega), hnone]),
        fun st hin hst => answer ?_⟩
      rw [if_neg (by omega), hst]
      exact congrArg (fun b => s.answer .ok b) (stationBytes_eq s entry.toNat st)
    · intro field hfield answered
      have hrole : mayUse (s.roles.get p) 0x08 = true := mayUse_of_hears (hears_of_freeAt hfree) (by decide)
      have hlen : fieldLengthOk 0x08 field.length = true := by rw [hfield]; rfl
      have answer {r : Result} {fields : List Byte} (h : serveFindStation field s = s.answer r fields) : answered r fields :=
        answered_of_serve (i := .findStation p tag field) rfl hfree rfl hrole hlen h rfl
      refine ⟨fun hbad => answer (by rw [serveFindStation, hbad]), fun c hc hnone => answer ?_, fun c e st hc hst hcall hfirst => answer ?_⟩
      · have hfind : findCall s.book c = none :=
          findCall_eq_none_iff.mpr fun e st hst => hnone e st (station_eq_some_iff.mpr hst)
        simp only [serveFindStation, hc, hfind]
      · have hfind : findCall s.book c = some e := findCall_eq_some_iff.mpr
          ⟨⟨st, station_eq_some_iff.mp hst, hcall⟩, fun e' st' hlt hst' => hfirst e' st' hlt (station_eq_some_iff.mpr hst')⟩
        simp only [serveFindStation, hc, hfind, hst]
        exact congrArg (fun b => s.answer .ok b) (stationBytes_eq s e st)
  case refine_2 =>
    intro freeBlocks channel grant
    refine ⟨?_, ?_, ?_⟩
    · have hrole : mayUse (s.roles.get p) 0x01 = true := mayUse_of_hears (hears_of_freeAt hfree) (by decide)
      refine answered_of_serve (i := .status p tag) rfl hfree rfl hrole rfl ?_ rfl
      simp only [serveRequest, serveStatus, statusBytes_eq, channelBytes_eq]
      rfl
    · have hrole : mayUse (s.roles.get p) 0x09 = true := mayUse_of_hears (hears_of_freeAt hfree) (by decide)
      exact answered_of_serve (i := .readCounters p tag) rfl hfree rfl hrole rfl rfl rfl
    · intro port answered
      have hrole : mayUse (s.roles.get p) 0x0B = true := mayUse_of_hears (hears_of_freeAt hfree) (by decide)
      have answer {r : Result} {fields : List Byte} (h : serveReadHandOffList p port s = s.answer r fields) : answered r fields :=
        answered_of_serve (i := .readHandOffList p tag port) rfl hfree rfl hrole rfl h rfl
      refine ⟨fun hbad => answer (by rw [serveReadHandOffList, hbad]), fun k hk => ⟨fun hoff => answer ?_, fun hoff hcon hne => answer ?_,
        fun hoff hown => answer ?_⟩⟩
      · simp [serveReadHandOffList, hk, hoff]
      · simp [serveReadHandOffList, hk, hoff, State.isConsole, hcon, hne]
      · have hmay : (!s.isConsole p && k != p) = false := by
          rcases hown with h | h <;> simp [State.isConsole, h]
        have hgrant (e : Entry) : s.recordOf e = match s.findMsg e.number, s.copyAt e.number e.index with
            | some m, some c => grant e m c
            | _, _ => [] := by
          have hrecord (m : Message) (c : Copy) : s.grantRecord e m c = grant e m c := by
            simp only [State.grantRecord, callAt_eq]; rfl
          rw [State.recordOf]
          cases s.findMsg e.number <;> cases s.copyAt e.number e.index <;> simp only [hrecord]
        have hcount : (s.channels.get k).state.count = match (s.channels.get k).state with | .asking n _ => n | _ => 0 := by
          cases (s.channels.get k).state <;> rfl
        have hrecords : (s.lists.get k).flatMap s.recordOf = (s.lists.get k).flatMap fun e =>
            match s.findMsg e.number, s.copyAt e.number e.index with
            | some m, some c => grant e m c
            | _, _ => [] := congrArg (List.flatMap · _) (funext hgrant)
        simp only [serveReadHandOffList, hk, hmay, State.isChannel, beq_iff_eq, hoff, if_false, hrecords, hcount, Bool.false_eq_true]
        rfl
  case refine_3 =>
    refine ⟨rfl, rfl, rfl, rfl, rfl, fun n f => rfl, fun f g t => rfl, rfl, ⟨rfl, rfl⟩, rfl,
      fun b => ⟨precOf_eq b, outcomeOf_eq b, adminOf_eq b, annFnOf_eq b, portOf_eq b⟩, fun f r fields => rfl, fun k n a r => rfl⟩

end Sys2Proof.Machine
end

section
/-! PROOF. Request frames and requests correspond (R184). -/
namespace Sys2Proof.Machine

/-! ### Two-byte fields and call-sign fields -/

theorem getLsbD_halfOf (a b : Byte) (i : Nat) : (halfOf a b).getLsbD i = if i < 8 then b.getLsbD i else a.getLsbD (i - 8) :=
  BitVec.getLsbD_append

@[simp] theorem halfOf_hiByte_loByte (h : Half) : halfOf (hiByte h) (loByte h) = h := by
  refine BitVec.eq_of_getLsbD_eq fun i hi => ?_
  rw [getLsbD_halfOf]
  split
  next hlow => simp [loByte, hlow]
  next hhigh => simp [hiByte, show i - 8 < 8 by omega, show 8 + (i - 8) = i by omega]

@[simp] theorem hiByte_halfOf (a b : Byte) : hiByte (halfOf a b) = a := by
  refine BitVec.eq_of_getLsbD_eq fun i hi => ?_
  rw [hiByte, BitVec.getLsbD_extractLsb', getLsbD_halfOf]
  simp [hi]

@[simp] theorem loByte_halfOf (a b : Byte) : loByte (halfOf a b) = b := by
  refine BitVec.eq_of_getLsbD_eq fun i hi => ?_
  rw [loByte, BitVec.getLsbD_extractLsb', getLsbD_halfOf]
  simp [hi]

/-- Cutting gives as many pieces as asked for. -/
theorem length_cutCalls (n : Nat) (bs : List Byte) : (cutCalls n bs).length = n := by
  induction n generalizing bs with
  | zero => rfl
  | succ n ih => simp [cutCalls, ih]

/-- Fields of seven bytes each, put in a row, are cut where they were joined. -/
theorem cutCalls_flatten {cs : List (List Byte)} (h : cs.all callField = true) : cutCalls cs.length cs.flatten = cs := by
  induction cs with
  | nil => rfl
  | cons c cs ih =>
    simp only [List.all_cons, Bool.and_eq_true, callField, beq_iff_eq] at h
    simp only [List.length_cons, List.flatten_cons, cutCalls, List.take_left' h.1, List.drop_left' h.1, ih h.2]

/-- A row of the right length is cut into fields of seven bytes each, which joined are the row. -/
theorem flatten_cutCalls {n : Nat} {bs : List Byte} (h : bs.length = 7 * n) :
    (cutCalls n bs).flatten = bs ∧ (cutCalls n bs).all callField = true := by
  induction n generalizing bs with
  | zero => exact ⟨(List.length_eq_zero_iff.mp h).symm, rfl⟩
  | succ n ih =>
    obtain ⟨hjoin, hfields⟩ := ih (bs := bs.drop 7) (by rw [List.length_drop]; omega)
    refine ⟨by rw [cutCalls, List.flatten_cons, hjoin, List.take_append_drop], ?_⟩
    simp only [cutCalls, List.all_cons, hfields, Bool.and_true, callField, beq_iff_eq, List.length_take]
    omega

/-! ### LODGE OPEN, the one frame with a repeated field -/

theorem decodeFrame_lodgeOpen {p : Port} {t prec : Byte} {origin : List Byte} {serial check : Half} {as : List (List Byte)}
    (h : (Instr.lodgeOpen p t prec origin serial check as).wellFormed = true) :
    decodeFrame p ⟨0x10, t, prec :: (origin ++ [hiByte serial, loByte serial, hiByte check, loByte check] ++ as.flatten)⟩
      = some (.lodgeOpen p t prec origin serial check as) := by
  have hok : fieldLengthOk 0x10 (prec :: (origin ++ [hiByte serial, loByte serial, hiByte check, loByte check] ++ as.flatten)).length
      = true := (Laws.FrameKind.lodgeOpen p t prec origin serial check as _ _ rfl h).2
  simp only [Instr.wellFormed, callField, Bool.and_eq_true, beq_iff_eq, decide_eq_true_eq] at h
  obtain ⟨⟨⟨horigin, has⟩, -⟩, -⟩ := h
  have hflat : as.flatten.length = 7 * as.length := Laws.length_flatten_calls has
  have hcount : ((origin ++ [hiByte serial, loByte serial, hiByte check, loByte check] ++ as.flatten).length - 11) / 7 = as.length := by
    simp only [List.length_append, List.length_cons, List.length_nil, horigin, hflat]; omega
  have htake : (origin ++ [hiByte serial, loByte serial, hiByte check, loByte check] ++ as.flatten).take 7 = origin := by
    rw [List.append_assoc, List.take_left' horigin]
  have hmid : ((origin ++ [hiByte serial, loByte serial, hiByte check, loByte check] ++ as.flatten).drop 7).take 4
      = [hiByte serial, loByte serial, hiByte check, loByte check] := by
    rw [List.append_assoc, List.drop_left' horigin]; rfl
  have hdrop : (origin ++ [hiByte serial, loByte serial, hiByte check, loByte check] ++ as.flatten).drop 11 = as.flatten :=
    List.drop_left' (by simp [horigin])
  have hdecode : decodeFrame p
      ⟨0x10, t, prec :: (origin ++ [hiByte serial, loByte serial, hiByte check, loByte check] ++ as.flatten)⟩
      = if fieldLengthOk 0x10 (prec :: (origin ++ [hiByte serial, loByte serial, hiByte check, loByte check] ++ as.flatten)).length then
          match ((origin ++ [hiByte serial, loByte serial, hiByte check, loByte check] ++ as.flatten).drop 7).take 4 with
          | [a, b, c, d] => some (.lodgeOpen p t prec
              ((origin ++ [hiByte serial, loByte serial, hiByte check, loByte check] ++ as.flatten).take 7) (halfOf a b) (halfOf c d)
              (cutCalls (((origin ++ [hiByte serial, loByte serial, hiByte check, loByte check] ++ as.flatten).length - 11) / 7)
                ((origin ++ [hiByte serial, loByte serial, hiByte check, loByte check] ++ as.flatten).drop 11)))
          | _ => none
        else none := rfl
  rw [hdecode, if_pos hok, hmid, htake, hdrop, hcount, cutCalls_flatten has]
  simp only [halfOf_hiByte_loByte]

/-- A frame that is cut as a LODGE OPEN is the frame of what it is cut into. -/
theorem toFrame_lodgeOpen {p : Port} {t prec a b c d : Byte} {rest : List Byte} (hok : fieldLengthOk 0x10 (rest.length + 1) = true)
    (hmid : (rest.drop 7).take 4 = [a, b, c, d]) :
    let i : Instr := .lodgeOpen p t prec (rest.take 7) (halfOf a b) (halfOf c d) (cutCalls ((rest.length - 11) / 7) (rest.drop 11))
    i.toFrame = some (p, ⟨0x10, t, prec :: rest⟩) ∧ i.wellFormed = true := by
  have hlen : 19 ≤ rest.length + 1 ∧ rest.length + 1 ≤ 68 ∧ (rest.length + 1 - 12) % 7 = 0 := by
    simpa [fieldLengthOk, and_assoc] using hok
  obtain ⟨hjoin, hfields⟩ := flatten_cutCalls (n := (rest.length - 11) / 7) (bs := rest.drop 11) (by rw [List.length_drop]; omega)
  have hrow : rest.take 7 ++ [a, b, c, d] ++ rest.drop 11 = rest := by
    rw [← hmid, List.append_assoc, show rest.drop 11 = (rest.drop 7).drop 4 by rw [List.drop_drop], List.take_append_drop,
      List.take_append_drop]
  constructor
  · simp only [Instr.toFrame, hiByte_halfOf, loByte_halfOf, hjoin, hrow]
  · have h7 : callField (rest.take 7) = true := by simp only [callField, List.length_take, beq_iff_eq]; omega
    simp only [Instr.wellFormed, h7, hfields, length_cutCalls, Bool.and_eq_true, decide_eq_true_eq]
    refine ⟨⟨⟨trivial, trivial⟩, ?_⟩, ?_⟩ <;> omega

/-! ### The correspondence -/

/-- The frame of a well-formed request decodes to it. -/
theorem decodeFrame_of_toFrame {i : Instr} {p : Port} {f : Frame} (hi : i.toFrame = some (p, f)) (hw : i.wellFormed = true) :
    decodeFrame p f = some i := by
  cases i with
  | lodgeOpen => cases hi; exact decodeFrame_lodgeOpen hw
  | findStation _ _ c => cases hi; exact (if_pos hw : (if callField c then _ else _) = _)
  | setOwnCall _ _ c => cases hi; exact (if_pos hw : (if callField c then _ else _) = _)
  | removeStation _ _ c => cases hi; exact (if_pos hw : (if callField c then _ else _) = _)
  | ask _ _ _ c => cases hi; exact (if_pos hw : (if callField c then _ else _) = _)
  | report _ t n i o c =>
    cases hi
    have hdecode : decodeFrame p ⟨0x18, t, hiByte n :: loByte n :: i :: o :: c⟩
        = if callField c then some (.report p t (halfOf (hiByte n) (loByte n)) i o c) else none := rfl
    rw [hdecode, if_pos (show callField c = true from hw), halfOf_hiByte_loByte]
  | lodgePart _ _ body => cases hi; exact (if_pos hw : (if fieldLengthOk 0x11 body.length then _ else _) = _)
  | heard _ t c g =>
    cases hi
    have hc : c.length = 7 := by simpa [Instr.wellFormed, callField] using hw
    have hdecode : decodeFrame p ⟨0x24, t, c ++ [g]⟩
        = match (c ++ [g]).drop 7 with | [x] => some (.heard p t ((c ++ [g]).take 7) x) | _ => none := rfl
    rw [hdecode, List.drop_left' hc, List.take_left' hc]
  | setStation _ t c ports g clear =>
    cases hi
    have hc : c.length = 7 := by simpa [Instr.wellFormed, callField] using hw
    have hdecode (fs : List Byte) : decodeFrame p ⟨0x31, t, fs⟩ = match fs.drop 7 with
        | [x, g0, g1, g2, g3, g4, g5, y] => some (.setStation p t (fs.take 7) x ⟨g0, g1, g2, g3, g4, g5⟩ y)
        | _ => none := rfl
    rw [hdecode, List.drop_left' hc, List.take_left' hc]
  | _ => cases hi <;> (conv => lhs; whnf) <;> simp only [halfOf_hiByte_loByte]

/-- A frame whose kind is none of the 39 carries no request. -/
theorem decodeFrame_of_not_request {p : Port} {kind tag : Byte} {fs : List Byte} (h : isRequestKind kind = false) :
    decodeFrame p ⟨kind, tag, fs⟩ = none := by
  have key : ∀ n, n < 256 → isRequestKind (BitVec.ofNat 8 n) = true ∨ decodeFrame p ⟨BitVec.ofNat 8 n, tag, fs⟩ = none := by
    intro n hn
    interval_cases n
    all_goals first | exact .inl rfl | exact .inr rfl
  have hkind := key kind.toNat kind.isLt
  simp only [BitVec.ofNat_toNat, BitVec.setWidth_eq] at hkind
  exact hkind.resolve_left (by simp [h])

/-- A frame whose field is kept whole under a test of its length. -/
theorem toFrame_of_ite {i j : Instr} {p : Port} {f : Frame} {ok : Bool} (hj : j.toFrame = some (p, f) ∧ j.wellFormed = ok)
    (h : (if ok then some j else none) = some i) : i.toFrame = some (p, f) ∧ i.wellFormed = true := by
  rw [Option.ite_none_right_eq_some] at h
  obtain ⟨hok, hji⟩ := h
  cases hji
  exact ⟨hj.1, hj.2.trans hok⟩

/-- A frame with something behind its first seven fields begins with a call-sign field. -/
theorem callField_take_of_drop {fs rest : List Byte} {b : Byte} (h : fs.drop 7 = b :: rest) : callField (fs.take 7) = true := by
  have := congrArg List.length h
  simp only [List.length_drop, List.length_cons] at this
  simp only [callField, List.length_take, beq_iff_eq]
  omega

/-- A frame that decodes is the frame of what it decodes to, whatever its kind: for each kind the fields are those that its row names. -/
theorem toFrame_of_decodeFrame {i : Instr} {p : Port} {f : Frame} (h : decodeFrame p f = some i) :
    i.toFrame = some (p, f) ∧ i.wellFormed = true := by
  obtain ⟨kind, t, fs⟩ := f
  cases hk : isRequestKind kind with
  | false => rw [decodeFrame_of_not_request hk] at h; cases h
  | true =>
    rw [isRequestKind_iff] at hk
    simp only [requestKinds, List.mem_cons, List.not_mem_nil, or_false] at hk
    rcases hk with rfl | rfl | rfl | rfl | rfl | rfl | rfl | rfl | rfl | rfl | rfl | rfl | rfl | rfl | rfl | rfl | rfl | rfl | rfl | rfl
      | rfl | rfl | rfl | rfl | rfl | rfl | rfl | rfl | rfl | rfl | rfl | rfl | rfl | rfl | rfl | rfl | rfl | rfl | rfl
    · rcases fs with _ | ⟨a, fs⟩ <;> cases h; simp [Instr.toFrame, Instr.wellFormed]
    · rcases fs with _ | ⟨a, _ | ⟨b, _ | ⟨c, fs⟩⟩⟩ <;> cases h; simp [Instr.toFrame, Instr.wellFormed]
    · rcases fs with _ | ⟨a, _ | ⟨b, _ | ⟨c, fs⟩⟩⟩ <;> cases h; simp [Instr.toFrame, Instr.wellFormed]
    · rcases fs with _ | ⟨a, _ | ⟨b, _ | ⟨c, _ | ⟨d, fs⟩⟩⟩⟩ <;> cases h; simp [Instr.toFrame, Instr.wellFormed]
    · rcases fs with _ | ⟨a, _ | ⟨b, _ | ⟨c, _ | ⟨d, _ | ⟨e, fs⟩⟩⟩⟩⟩ <;> cases h; simp [Instr.toFrame, Instr.wellFormed]
    · rcases fs with _ | ⟨a, _ | ⟨b, _ | ⟨c, _ | ⟨d, _ | ⟨e, _ | ⟨f, fs⟩⟩⟩⟩⟩⟩ <;> cases h; simp [Instr.toFrame, Instr.wellFormed]
    · rcases fs with _ | ⟨a, _ | ⟨b, fs⟩⟩ <;> cases h; simp [Instr.toFrame, Instr.wellFormed]
    · exact toFrame_of_ite (j := .findStation p t fs) (ok := callField fs) ⟨rfl, rfl⟩ h
    · rcases fs with _ | ⟨a, fs⟩ <;> cases h; simp [Instr.toFrame, Instr.wellFormed]
    · rcases fs with _ | ⟨a, _ | ⟨b, _ | ⟨c, _ | ⟨d, _ | ⟨e, fs⟩⟩⟩⟩⟩ <;> cases h; simp [Instr.toFrame, Instr.wellFormed]
    · rcases fs with _ | ⟨a, _ | ⟨b, fs⟩⟩ <;> cases h; simp [Instr.toFrame, Instr.wellFormed]
    · rcases fs with _ | ⟨prec, rest⟩
      · cases h
      · have hcut : (if fieldLengthOk 0x10 (rest.length + 1) then match (rest.drop 7).take 4 with
            | [a, b, c, d] => some (.lodgeOpen p t prec (rest.take 7) (halfOf a b) (halfOf c d)
                (cutCalls ((rest.length - 11) / 7) (rest.drop 11)))
            | _ => none else none) = some i := h
        split at hcut
        next hok =>
          split at hcut
          next hmid => cases hcut; exact toFrame_lodgeOpen hok hmid
          next => cases hcut
        next => cases hcut
    · exact toFrame_of_ite (j := .lodgePart p t fs) (ok := fieldLengthOk 0x11 fs.length) ⟨rfl, rfl⟩ h
    · rcases fs with _ | ⟨a, fs⟩ <;> cases h; simp [Instr.toFrame, Instr.wellFormed]
    · rcases fs with _ | ⟨a, fs⟩ <;> cases h; simp [Instr.toFrame, Instr.wellFormed]
    · rcases fs with _ | ⟨a, _ | ⟨b, _ | ⟨k, _ | ⟨o, relay⟩⟩⟩⟩
      iterate 4 cases h
      exact toFrame_of_ite (j := .report p t (halfOf a b) k o relay) (ok := callField relay) ⟨by simp [Instr.toFrame], rfl⟩ h
    · rcases fs with _ | ⟨a, _ | ⟨b, _ | ⟨c, _ | ⟨d, fs⟩⟩⟩⟩ <;> cases h; simp [Instr.toFrame, Instr.wellFormed]
    · rcases fs with _ | ⟨a, fs⟩ <;> cases h; simp [Instr.toFrame, Instr.wellFormed]
    · rcases fs with _ | ⟨a, fs⟩ <;> cases h; simp [Instr.toFrame, Instr.wellFormed]
    · rcases fs with _ | ⟨n, filter⟩
      · cases h
      · exact toFrame_of_ite (j := .ask p t n filter) (ok := callField filter) ⟨rfl, rfl⟩ h
    · rcases fs with _ | ⟨a, fs⟩ <;> cases h; simp [Instr.toFrame, Instr.wellFormed]
    · have hcut : (match fs.drop 7 with | [g] => some (.heard p t (fs.take 7) g) | _ => none) = some i := h
      split at hcut
      next g hdrop => cases hcut; exact ⟨by rw [Instr.toFrame, ← hdrop, List.take_append_drop], callField_take_of_drop hdrop⟩
      next => cases hcut
    · rcases fs with _ | ⟨a, fs⟩ <;> cases h; simp [Instr.toFrame, Instr.wellFormed]
    · exact toFrame_of_ite (j := .setOwnCall p t fs) (ok := callField fs) ⟨rfl, rfl⟩ h
    · have hcut : (match fs.drop 7 with
          | [ports, g0, g1, g2, g3, g4, g5, clear] => some (.setStation p t (fs.take 7) ports ⟨g0, g1, g2, g3, g4, g5⟩ clear)
          | _ => none) = some i := h
      split at hcut
      next hdrop => cases hcut; exact ⟨by rw [Instr.toFrame, ← hdrop, List.take_append_drop], callField_take_of_drop hdrop⟩
      next => cases hcut
    · exact toFrame_of_ite (j := .removeStation p t fs) (ok := callField fs) ⟨rfl, rfl⟩ h
    · rcases fs with _ | ⟨a, _ | ⟨b, _ | ⟨c, _ | ⟨d, _ | ⟨e, _ | ⟨f, _ | ⟨g, fs⟩⟩⟩⟩⟩⟩⟩ <;> cases h; simp [Instr.toFrame, Instr.wellFormed]
    · rcases fs with _ | ⟨a, _ | ⟨b, _ | ⟨c, _ | ⟨d, _ | ⟨e, _ | ⟨f, _ | ⟨g, _ | ⟨h, _ | ⟨i, _ | ⟨j, _ | ⟨k, _ | ⟨l, _ | ⟨m, _ | ⟨n, _ | ⟨o, _ | ⟨p, fs⟩⟩⟩⟩⟩⟩⟩⟩⟩⟩⟩⟩⟩⟩⟩⟩ <;> cases h; simp [Instr.toFrame, Instr.wellFormed]
    · rcases fs with _ | ⟨a, _ | ⟨b, _ | ⟨c, _ | ⟨d, _ | ⟨e, _ | ⟨f, _ | ⟨g, _ | ⟨h, _ | ⟨i, _ | ⟨j, _ | ⟨k, _ | ⟨l, _ | ⟨m, _ | ⟨n, fs⟩⟩⟩⟩⟩⟩⟩⟩⟩⟩⟩⟩⟩⟩ <;> cases h; simp [Instr.toFrame, Instr.wellFormed]
    · rcases fs with _ | ⟨a, _ | ⟨b, _ | ⟨c, fs⟩⟩⟩ <;> cases h; simp [Instr.toFrame, Instr.wellFormed]
    · rcases fs with _ | ⟨a, _ | ⟨b, fs⟩⟩ <;> cases h; simp [Instr.toFrame, Instr.wellFormed]
    · rcases fs with _ | ⟨a, _ | ⟨b, _ | ⟨c, _ | ⟨d, fs⟩⟩⟩⟩ <;> cases h; simp [Instr.toFrame, Instr.wellFormed]
    · rcases fs with _ | ⟨a, _ | ⟨b, _ | ⟨c, _ | ⟨d, _ | ⟨e, fs⟩⟩⟩⟩⟩ <;> cases h; simp [Instr.toFrame, Instr.wellFormed]
    · rcases fs with _ | ⟨a, _ | ⟨b, _ | ⟨c, _ | ⟨d, fs⟩⟩⟩⟩ <;> cases h; simp [Instr.toFrame, Instr.wellFormed]
    · rcases fs with _ | ⟨a, _ | ⟨b, _ | ⟨c, fs⟩⟩⟩ <;> cases h; simp [Instr.toFrame, Instr.wellFormed]
    · rcases fs with _ | ⟨a, _ | ⟨b, _ | ⟨c, _ | ⟨d, fs⟩⟩⟩⟩ <;> cases h; simp [Instr.toFrame, Instr.wellFormed]
    · rcases fs with _ | ⟨a, fs⟩ <;> cases h; simp [Instr.toFrame, Instr.wellFormed]
    · rcases fs with _ | ⟨a, fs⟩ <;> cases h; simp [Instr.toFrame, Instr.wellFormed]
    · rcases fs with _ | ⟨a, _ | ⟨b, _ | ⟨c, _ | ⟨d, _ | ⟨e, fs⟩⟩⟩⟩⟩ <;> cases h; simp [Instr.toFrame, Instr.wellFormed]

/-- Settles O3: one direction case by case over the requests, the other over the kinds. -/
theorem framesAndRequestsCorrespond : Obligations.FramesAndRequestsCorrespond := fun _ _ _ =>
  ⟨toFrame_of_decodeFrame, fun h => decodeFrame_of_toFrame h.1 h.2⟩

end Sys2Proof.Machine
end

section
/-! PROOF. The lines: a frame taken into service, held or overrun, the receiver's moves, and a frame received character by character
(R155 to R165). -/
namespace Sys2Proof.Machine

/-! ### A frame taken into service -/

/-- The tests of decoding and the service of a frame whose answer is a result: the reply stands at the port, and the state behind the lines
is the one the service left. -/
theorem intoService_answers {s u : State} {p : Port} {f : Frame} {serve : State → State × Answer} {r : Result} {fields : List Byte}
    (h : s.decodeTests p f serve = u.answer r fields) (hunits : u.units = s.units) :
    (s.intoService p f serve).finish.behind = u.behind ∧ (s.intoService p f serve).finish.answers s p f r fields := by
  have hinto : s.intoService p f serve = u.updUnit p fun x => { x with service := some (serviceFor f (.reply r fields)) } := by
    rw [State.intoService, h]; rfl
  rw [hinto]
  refine ⟨by rw [State.finish_behind]; rfl, ?_, fun q hq => ?_, State.finish_outputs _⟩
  · simp [State.finish_unit, State.serviceOf, hunits, serviceFor]
  · simp [State.lineFollows, State.finish_unit, State.serviceOf, hunits, PerPort.get_set_ne _ _ hq]

/-- The three tests of decoding, for the frame of any kind (R163). -/
theorem decodeTests_badKind {s : State} {p : Port} {f : Frame} (serve : State → State × Answer) (h : isRequestKind f.kind = false) :
    s.decodeTests p f serve = s.answer .badKind [] := by
  simp [State.decodeTests, h, State.answer]

theorem decodeTests_notRole {s : State} {p : Port} {f : Frame} (serve : State → State × Answer) (h : isRequestKind f.kind = true)
    (hrole : s.roles.get p ∉ sendersOf f.kind) : s.decodeTests p f serve = s.answer .notRole [] := by
  rw [← mayUse_iff_mem_sendersOf h, Bool.not_eq_true] at hrole
  simp [State.decodeTests, h, hrole, State.answer]

theorem decodeTests_badLength {s : State} {p : Port} {f : Frame} (serve : State → State × Answer) (h : isRequestKind f.kind = true)
    (hrole : s.roles.get p ∈ sendersOf f.kind) (hlength : fieldLengthOk f.kind f.fields.length = false) :
    s.decodeTests p f serve = s.answer .badField [] := by
  rw [← mayUse_iff_mem_sendersOf h] at hrole
  simp [State.decodeTests, h, hrole, hlength, State.answer]

/-- A frame is served by what it decodes to. -/
theorem serveFrame_of_toFrame {i : Instr} {p : Port} {f : Frame} (hi : i.toFrame = some (p, f)) (hw : i.wellFormed = true) :
    serveFrame p f = serveRequest i := by
  funext s
  rw [serveFrame, decodeFrame_of_toFrame hi hw]

theorem submit_of_hears {s : State} {p : Port} (h : s.hears p = true) (f : Frame) (serve : State → State × Answer) :
    submit s p f serve = .next (s.arrive p f serve).finish := if_pos h

theorem submit_of_not_hears {s : State} {p : Port} (h : s.hears p = false) (f : Frame) (serve : State → State × Answer) :
    submit s p f serve = .next s := by simp [submit, h]

theorem arrive_free {s : State} {p : Port} (h : s.serviceOf p = none) (f : Frame) (serve : State → State × Answer) :
    s.arrive p f serve = s.intoService p f serve := by
  simp only [State.serviceOf] at h; simp only [State.arrive, h]

/-- A discarded frame, whole: the event, the count, and the last fault. -/
theorem linkFault_eq {s : State} {p : Port} (hears : s.hears p = true) (cause : LinkCause) :
    s.linkFault p cause = { s with
      status := s.statusWith .linkFault p
      counters := s.countersWith p fun c => { c with discarded := min (c.discarded + 1) 65535 }
      units := s.units.set p { s.units.get p with lastFault := cause } } := by
  rw [← PortUnit.raiseAt_linkFault_status hears]
  rfl

/-! ### The receiver -/

theorem setReceiver_units (s : State) (p : Port) (r : Receiver) :
    (s.setReceiver p r).units = s.units.set p { s.units.get p with receiver := r } := rfl

theorem setReceiver_setReceiver (s : State) (p : Port) (r r' : Receiver) : (s.setReceiver p r).setReceiver p r' = s.setReceiver p r' := by
  simp [State.setReceiver, State.updUnit]

theorem setReceiver_self {s : State} {p : Port} {r : Receiver} (h : (s.units.get p).receiver = r) : s.setReceiver p r = s := by
  subst h; exact congrArg (fun u => { s with units := u }) (PerPort.set_get_self s.units p)

theorem setReceiver_receiver (s : State) (p : Port) (r : Receiver) : ((s.setReceiver p r).units.get p).receiver = r := by
  simp [State.setReceiver]

/-- An arrival that only moves the receiver. -/
theorem moves_of_receiver {s : State} {p : Port} {i : Instr} {r : Receiver} (h : exec i s = .next (s.setReceiver p r).finish) :
    ∃ t, exec i s = .next t ∧ t.behind = s.behind ∧ t.lineEvent s p { s.units.get p with receiver := r } :=
  ⟨_, h, State.finish_behind _, State.finish_lineEvent (setReceiver_units s p r)⟩

theorem receive_hunting {s : State} {p : Port} (h : (s.units.get p).receiver = .hunting) (b : Byte) :
    s.receive p b = s.setReceiver p (if b == Config.startMark then .inFrame none [] else .hunting) := by
  simp only [State.receive, h]
  split
  · rfl
  · exact (setReceiver_self h).symm

theorem receive_contents {s : State} {p : Port} {n : Nat} {got : List Byte} (h : (s.units.get p).receiver = .inFrame (some n) got)
    (b : Byte) : s.receive p b =
      if n ≤ got.length + 1 then s.frameComplete p (got ++ [b]) else s.setReceiver p (.inFrame (some n) (got ++ [b])) := by
  simp only [State.receive, h, List.length_append, List.length_singleton]

theorem exec_lineReturnsToMark {s : State} {p : Port} (hears : s.hears p = true) :
    exec (.lineReturnsToMark p) s = .next (s.receiveMark p).finish :=
  PortUnit.arrival_of_hears hears fun t => t.receiveMark p

theorem exec_replySent {s : State} {p : Port} (hears : s.hears p = true) : exec (.replySent p) s = .next (s.endService p).finish :=
  PortUnit.arrival_of_hears hears fun t => t.endService p

/-- Settles O8: each arrival is one move of the receiver, which touches no other field and closes the event. -/
theorem receiverMovesWithoutAFault : Obligations.ReceiverMovesWithoutAFault := by
  intro p s r hears hr moves
  have move {i : Instr} {t : State} {after : Receiver} (hexec : exec i s = .next t.finish) (ht : t = s.setReceiver p after) :
      moves i after := moves_of_receiver (by rw [hexec, ht])
  have character (b : Byte) := PortUnit.exec_receiveCharacter hears b
  have framing := PortUnit.exec_framingError hears
  have brk := PortUnit.exec_lineBreak hears
  have gap := PortUnit.exec_frameGapExpiry hears
  refine ⟨?_, ?_, ?_, ?_, ?_⟩
  · rintro rfl
    refine ⟨move (character _) (receive_hunting hr _), fun b hb => move (character b) ?_, move framing ?_, move brk ?_, move gap ?_⟩
    · rw [receive_hunting hr, if_neg (by simpa [Config.startMark] using hb)]
    · simp only [State.receiveFraming, hr]
    · simp only [State.receiveBreak, hr]
    · simp only [State.receiveGap, hr]
      exact (setReceiver_self hr).symm
  · rintro got rfl b h2 h96
    exact move (character b) (by rw [PortUnit.receive_length hr, if_neg (by omega), if_neg (by omega)])
  · rintro n got rfl hlt b
    exact move (character b) (by rw [receive_contents hr, if_neg (by omega)])
  · rintro rfl
    refine ⟨fun b => move (character b) ?_, move framing ?_, move brk ?_, move gap ?_⟩
    · simp only [State.receive, hr]
    · simp only [State.receiveFraming, hr]
    · simp only [State.receiveBreak, hr]
    · simp only [State.receiveGap, hr]
  · rintro rfl
    refine ⟨move (exec_lineReturnsToMark hears) ?_, move brk ?_⟩
    · simp only [State.receiveMark, hr]
    · simp only [State.receiveBreak, hr]

/-! ### The table of requests -/

theorem fieldLengthOk_lodgeOpen (n : Nat) : fieldLengthOk 0x10 n = true ↔ ∃ a, 1 ≤ a ∧ a ≤ 8 ∧ n = 12 + 7 * a := by
  have hrow : fieldLengthOk 0x10 n = (19 ≤ n && n ≤ 68 && (n - 12) % 7 == 0) := rfl
  simp only [hrow, Bool.and_eq_true, decide_eq_true_eq, beq_iff_eq]
  constructor
  · intro h; exact ⟨(n - 12) / 7, by omega⟩
  · rintro ⟨a, h1, h8, rfl⟩; omega

theorem fieldLengthOk_lodgePart (n : Nat) : fieldLengthOk 0x11 n = true ↔ 1 ≤ n ∧ n ≤ 48 := by
  have hrow : fieldLengthOk 0x11 n = (1 ≤ n && n ≤ 48) := rfl
  simp only [hrow, Bool.and_eq_true, decide_eq_true_eq]

/-- The kinds with one field length, each with it (R184). -/
def requestTable : List (Byte × Nat) := [
  (0x01, 0), (0x02, 2), (0x03, 2), (0x04, 3), (0x05, 4), (0x06, 5), (0x07, 1), (0x08, 7), (0x09, 0), (0x0A, 4),
  (0x0B, 1), (0x12, 0), (0x13, 0), (0x18, 11), (0x19, 3), (0x20, 0), (0x21, 0), (0x22, 8), (0x23, 0), (0x24, 8),
  (0x28, 0), (0x30, 7), (0x31, 15), (0x32, 7), (0x33, 6), (0x34, 15), (0x35, 13), (0x36, 2), (0x37, 1), (0x38, 3),
  (0x39, 4), (0x3A, 3), (0x3B, 2), (0x3C, 3), (0x3D, 0), (0x3E, 0), (0x3F, 4)]

/-- The kinds of requests are those of the table and the two with a field of variable length. -/
theorem isRequestKind_iff_table (k : Byte) : isRequestKind k = true ↔ k = 0x10 ∨ k = 0x11 ∨ ∃ n, (k, n) ∈ requestTable := by
  have hperm : requestKinds.Perm (0x10 :: 0x11 :: requestTable.map Prod.fst) := by decide
  rw [isRequestKind_iff, hperm.mem_iff]
  simp only [List.mem_cons, List.mem_map, Prod.exists, exists_and_right, exists_eq_right]

theorem fieldLengthOk_table {x : Byte × Nat} (hx : x ∈ requestTable) (n : Nat) : fieldLengthOk x.1 n = true ↔ n = x.2 := by
  simp only [requestTable, List.mem_cons, List.not_mem_nil, or_false] at hx
  rcases hx with rfl | rfl | rfl | rfl | rfl | rfl | rfl | rfl | rfl | rfl | rfl | rfl | rfl | rfl | rfl | rfl | rfl | rfl | rfl
    | rfl | rfl | rfl | rfl | rfl | rfl | rfl | rfl | rfl | rfl | rfl | rfl | rfl | rfl | rfl | rfl | rfl | rfl
  all_goals exact beq_iff_eq

/-- Settles O6: the frame received whole is taken into service, where the first test that fails answers; the table is read row by row. -/
theorem decodingTestsComeInOrder : Obligations.DecodingTestsComeInOrder := by
  refine ⟨fun p s n got b kind tag fields hfree hr hn hgot => ?_, isRequestKind_iff_table, fun _ => fieldLengthOk_table,
    fieldLengthOk_lodgeOpen, fieldLengthOk_lodgePart⟩
  · intro refused
    have hexec : exec (.receiveCharacter p b) s
        = .next ((s.setReceiver p .hunting).intoService p ⟨kind, tag, fields⟩ (serveFrame p ⟨kind, tag, fields⟩)).finish := by
      have hservice : (s.setReceiver p .hunting).serviceOf p = none := by
        have hnone := serviceOf_of_freeAt hfree
        simpa [State.serviceOf, State.setReceiver] using hnone
      rw [PortUnit.exec_receiveCharacter (hears_of_freeAt hfree), receive_contents hr, if_pos (by omega), hgot, ← arrive_free hservice]
      rfl
    have refuse {r : Result}
        (h : (s.setReceiver p .hunting).decodeTests p ⟨kind, tag, fields⟩ (serveFrame p ⟨kind, tag, fields⟩)
          = (s.setReceiver p .hunting).answer r []) : refused r :=
      ⟨_, hexec, intoService_answers (u := s.setReceiver p .hunting) h rfl⟩
    exact ⟨fun hk => refuse (decodeTests_badKind _ hk), fun hk hrole => refuse (decodeTests_notRole _ hk hrole),
      fun hk hrole hlength => refuse (decodeTests_badLength _ hk hrole hlength)⟩

end Sys2Proof.Machine
end

section
/-! PROOF. Everything that the service of a request can do to the state, said once: the effects of the 39 requests, each with the tests
that it has passed. A request that is not served changes nothing. -/
namespace Sys2Proof.Machine

/-- The effects of the requests of port `p`, each with the tests that lead to it. -/
inductive State.Serves (s : State) (p : Port) : State → Prop
  | clearEvents (e : EventSet) : s.Serves p { s with status := s.status.set p (s.status.get p &&& ~~~e) }
  | setEventMask (e : EventSet) : s.Serves p { s with enable := s.enable.set p (e &&& routedSet (s.roles.get p)) }
  | setAnnunciator (f : Four AnnFn) : s.Serves p { s with annFns := f }
  | countDuplicate : s.Serves p s.countDuplicate
  | lodgeOpen {prec : Byte} {origin : List Byte} {serial check : Half} {addressees : List (List Byte)} {f : OpenFields}
      {rs : List Resolved} {u : State} (fields : openFields prec origin serial check addressees = some f)
      (empty : s.lodges.get p = none) (resolved : resolveAll s.named s.clock f.calls s.book [] = some rs)
      (new : ∀ o, f.origin = some o → (⟨o, f.serial⟩ : Key) ∉ s.dupTable ∧ (⟨o, f.serial⟩ : Key) ∉ s.ring)
      (room : s.makeRoom (slotCondition f.prec) = some u) : s.Serves p (u.serveOpen p f rs).1
  | lodgePart {m : Message} {bytes : List Byte} {u : State} (lodged : s.lodgedMsg p = some m)
      (short : m.body.length + bytes.length ≤ Config.bodyMax)
      (room : s.makeRoom (blockCondition m.prec (blocksFor (m.body.length + bytes.length) - m.chain.length)) = some u) :
      s.Serves p (u.appendPart p m bytes (blocksFor (m.body.length + bytes.length) - m.chain.length)).checkLow
  | lodgeClose {m : Message} (lodged : s.lodgedMsg p = some m) : s.Serves p (s.fileMsg p m)
  | lodgeDrop {m : Message} (lodged : s.lodgedMsg p = some m) : s.Serves p (s.dropLodge p m).checkLow
  | ownReport {n i : Nat} {m : Message} {c : Copy} {e : Entry} {o : ReportOutcome} {relay : Call} (found : s.findMsg n = some m)
      (copy : m.copies[i]? = some c) (filed : m.isOpen = false) (entry : s.entryOf p n i = some e) :
      s.Serves p (s.ownReport p n i m c e o relay)
  | lateReport {n i : Nat} {m : Message} {c : Copy} {o : ReportOutcome} {relay : Call} (found : s.findMsg n = some m)
      (copy : m.copies[i]? = some c) (filed : m.isOpen = false) (live : c.terminal = false) : s.Serves p (s.lateReport p n i c o relay)
  | extend {n i deadline : Nat} {e : Entry} (entry : s.entryOf p n i = some e) (below : e.extensions < 2) :
      s.Serves p (s.updEntry p n i fun x => { x with deadline := deadline, extensions := x.extensions + 1 })
  | channelOpen (closed : (s.channels.get p).state = .closed) : s.Serves p (s.updChannel p fun _ => ⟨.ready, 0⟩)
  | channelClose (empty : s.lists.get p = []) : s.Serves p ((s.setChan p .closed).releaseHolds p)
  | askStands {n : Nat} {f : Option Nat} (active : (s.channels.get p).state = .ready ∨ ∃ k g, (s.channels.get p).state = .asking k g)
      (room : (s.lists.get p).length + n ≤ Config.listMax) (known : ∀ e, f = some e → ∃ c, findCall s.book c = some e) :
      s.Serves p (s.setChan p (.asking n f))
  | askEnds (active : (s.channels.get p).state = .ready ∨ ∃ k g, (s.channels.get p).state = .asking k g) :
      s.Serves p (s.setChan p .ready)
  | heard {c : Call} {t : State} {e g : Nat} {made : Bool} (entry : s.entryFor c .auto = some (t, e, made)) :
      s.Serves p (t.updStation e fun st => st.writeGrade p g s.clock)
  | takeLocal {x : Cand} (desk : s.roles.get p ≠ .channel) (room : (s.lists.get p).length < Config.listMax)
      (best : s.best p s.localCands = some x) : s.Serves p (s.handOver p x.msg.number x.index x.msg.prec)
  | setOwnCall (c : Call) : s.Serves p (s.updStation 0 fun st => { st with call := c })
  | setStation {c : Call} {t : State} {e : Nat} {made : Bool} {ports : Byte} {grades : PerPort Byte} {clear : Byte}
      (entry : s.entryFor c .set = some (t, e, made)) : s.Serves p (t.updStation e (s.setEntry ports grades clear))
  | removeStation {e : Nat} (unnamed : s.named e = false) : s.Serves p { s.endStreak e with book := (s.endStreak e).book.set e none }
  | setRanking (r : RankSettings) : s.Serves p { s with ranking := r }
  | setDispatch (d : DispatchSettings) :
      s.Serves p { (if d.decay != s.dispatch.decay then s.decayAll d.decay else s) with dispatch := d }
  | setHandOff (tl tp tw tr : Half) (ll lp lw lr lapse : Byte) :
      s.Serves p (State.changeCopies { s with handOff := handOffTaken tl tp tw tr ll lp lw lr lapse }
        (s.refsWhere fun m c => limitFails s.handOff.limits (handOffTaken tl tp tw tr ll lp lw lr lapse).limits m.prec c)
        fun c => c.become .failed)
  | setChannelAdmin (k : Port) (m : AdminMode) : s.Serves p (s.enterMode k m)
  | restoreChannel {k : Port} (lapsed : (s.channels.get k).state = .lapsed) : s.Serves p (s.updChannel k fun _ => ⟨.closed, 0⟩)
  | cancelOne {n i : Nat} {m : Message} {c : Copy} (found : s.findMsg n = some m) (copy : m.copies[i]? = some c)
      (cancellable : c.cancellable = true) : s.Serves p (s.cancelCopy n i)
  | cancelAll {n : Nat} {m : Message} (found : s.findMsg n = some m) (filed : m.isOpen = false) :
      s.Serves p (m.indices.foldl (fun t i => t.cancelCopy n i) s)
  | pin {n i : Nat} {k : Option Port} {m : Message} {c : Copy} (found : s.findMsg n = some m) (copy : m.copies[i]? = some c)
      (pinnable : c.pinnable = true) : s.Serves p (s.changeCopy n i (Copy.pinTo k))
  | requeue {n : Nat} {sel : Selector} {m : Message} (found : s.findMsg n = some m) (filed : m.isOpen = false) :
      s.Serves p (((m.selected sel).filter fun ci => ci.1.isFailed).foldl (fun t ci => t.changeCopy n ci.2 (s.requeued m.prec)) s)
  | purge {n : Nat} {m : Message} (found : s.findMsg n = some m) (filed : m.isOpen = false) (free : m.copies.any Copy.inList = false) :
      s.Serves p (s.purgeMsg m).checkLow
  | setStore (r : StoreSettings) : s.Serves p { s with storeSet := r }
  | clearStore : s.Serves p s.clearTraffic.checkLow
  | clearCounters : s.Serves p { s with counters := .same zeroCounters, totals := ⟨0, 0, 0⟩ }

/-- An answer that is a refusal, or a reading: the state is as it was; or one with an effect, which is then no refusal but DUPLICATE. -/
def State.ServedAs (s : State) (p : Port) (x : State × Answer) : Prop :=
  x.1 = s ∨ s.Serves p x.1 ∧ ∀ r fields, x.2 = .reply r fields → r = .ok ∨ r = .lateAccepted ∨ r = .duplicate

theorem servedAs_same {s : State} {p : Port} (a : Answer) : s.ServedAs p (s, a) := .inl rfl

theorem servedAs_answer {s : State} {p : Port} (r : Result) (fields : List Byte) : s.ServedAs p (s.answer r fields) := .inl rfl

theorem servedAs_ok {s t : State} {p : Port} {fields : List Byte} (h : s.Serves p t) : s.ServedAs p (t.answer .ok fields) :=
  .inr ⟨h, fun _ _ e => by cases e; exact .inl rfl⟩

theorem servedAs_late {s t : State} {p : Port} {fields : List Byte} (h : s.Serves p t) : s.ServedAs p (t.answer .lateAccepted fields) :=
  .inr ⟨h, fun _ _ e => by cases e; exact .inr (.inl rfl)⟩

theorem servedAs_duplicate {s t : State} {p : Port} {fields : List Byte} (h : s.Serves p t) :
    s.ServedAs p (t.answer .duplicate fields) :=
  .inr ⟨h, fun _ _ e => by cases e; exact .inr (.inr rfl)⟩

theorem servedAs_ask {s t : State} {p : Port} {clamped stood : Nat} {filter : Option Nat} (h : s.Serves p t) :
    s.ServedAs p (t, .askStands clamped stood filter) :=
  .inr ⟨h, fun _ _ e => by cases e⟩

/-! ### The requests with several tests -/

theorem serveLodgeOpen_served (s : State) (p : Port) (prec : Byte) (origin : List Byte) (serial check : Half)
    (addressees : List (List Byte)) : s.ServedAs p (serveLodgeOpen p prec origin serial check addressees s) := by
  unfold serveLodgeOpen
  split
  · exact servedAs_answer ..
  next f fields =>
    split
    · exact servedAs_answer ..
    next empty =>
      split
      · exact servedAs_answer ..
      next rs resolved =>
        have room (new : ∀ o, f.origin = some o → (⟨o, f.serial⟩ : Key) ∉ s.dupTable ∧ (⟨o, f.serial⟩ : Key) ∉ s.ring) :
            s.ServedAs p (s.openIfRoom p f rs) := by
          unfold State.openIfRoom
          split
          · exact servedAs_answer ..
          next u hu => exact servedAs_ok (.lodgeOpen fields empty resolved new hu)
        split
        next key hkey =>
          split
          · exact servedAs_duplicate .countDuplicate
          · split
            · exact servedAs_duplicate .countDuplicate
            next htable hring =>
              refine room fun o ho => ?_
              simp only [ho, Option.map_some, Option.some.injEq] at hkey
              subst hkey
              simpa using And.intro htable hring
        next hkey =>
          refine room fun o ho => ?_
          simp [ho] at hkey

theorem serveReport_served (s : State) (p : Port) (number : Half) (index outcome : Byte) (relay : List Byte) :
    s.ServedAs p (serveReport p number index outcome relay s) := by
  unfold serveReport
  split
  next n i o _ _ _ =>
    split
    · exact servedAs_answer ..
    · split
      · exact servedAs_answer ..
      next m found =>
        split
        · exact servedAs_answer ..
        next c copy =>
          split
          · exact servedAs_answer ..
          next filed =>
            unfold State.reportOn
            split
            · exact servedAs_answer ..
            · split
              next e entry => exact servedAs_ok (.ownReport found copy (by simpa using filed) entry)
              next =>
                split
                · exact servedAs_answer ..
                · split
                  · exact servedAs_answer ..
                  · split
                    · exact servedAs_answer ..
                    next live => exact servedAs_late (.lateReport found copy (by simpa using filed) (by simpa using live))
  next => exact servedAs_answer ..

theorem standAsk_served {s : State} {p : Port} {f : Option Nat} (count : Byte)
    (active : (s.channels.get p).state = .ready ∨ ∃ k g, (s.channels.get p).state = .asking k g)
    (known : ∀ e, f = some e → ∃ c, findCall s.book c = some e) : s.ServedAs p (s.standAsk p count f) := by
  unfold State.standAsk
  dsimp only
  split
  · exact servedAs_ask (.askEnds active)
  next hstood => 
    have hmax : Config.listMax = 4 := rfl
    exact servedAs_ask (.askStands active (by omega) known)

theorem serveAsk_served (s : State) (p : Port) (count : Byte) (filter : List Byte) : s.ServedAs p (serveAsk p count filter s) := by
  have hentry {e : Nat} (h : s.filterTest filter = .entry e) : ∃ c, findCall s.book c = some e := by
    unfold State.filterTest at h
    split at h
    · cases h
    · split at h
      · cases h
      next c _ =>
        split at h
        · cases h
        · split at h
          next hfound => cases h; exact ⟨c, hfound⟩
          · cases h
  have stands (active : (s.channels.get p).state = .ready ∨ ∃ k g, (s.channels.get p).state = .asking k g) :
      s.ServedAs p (if s.admin.get p == .bar then s.answer .barred else match s.filterTest filter with
        | .own => s.answer .state
        | .unknown => s.answer .noSuch
        | .entry e => s.standAsk p count (some e)
        | .noFilter | .badField => s.standAsk p count none) := by
    split
    · exact servedAs_answer ..
    · split
      · exact servedAs_answer ..
      · exact servedAs_answer ..
      next e he => exact standAsk_served count active fun e' h => by cases h; exact hentry he
      all_goals exact standAsk_served count active fun e' h => by cases h
  unfold serveAsk
  dsimp only
  split
  · exact servedAs_answer ..
  · cases hst : (s.channels.get p).state with
    | closed | lapsed => exact servedAs_answer ..
    | ready => exact stands (.inl hst)
    | asking k g => exact stands (.inr ⟨k, g, hst⟩)

theorem serveExtend_served (s : State) (p : Port) (number : Half) (index : Byte) :
    s.ServedAs p (serveExtend p number index s) := by
  unfold serveExtend
  split
  · split
    · exact servedAs_answer ..
    · split
      · exact servedAs_answer ..
      · split
        · exact servedAs_answer ..
        next e entry =>
          split
          · exact servedAs_answer ..
          · split
            · exact servedAs_answer ..
            next below => exact servedAs_ok (.extend entry (by omega))
  · exact servedAs_answer ..

theorem serveCancel_served (s : State) (p : Port) (number : Half) (selector : Byte) :
    s.ServedAs p (serveCancel number selector s) := by
  unfold serveCancel
  split
  · split
    · exact servedAs_answer ..
    next m found =>
      split
      · split
        · exact servedAs_answer ..
        next c copy =>
          split
          · exact servedAs_answer ..
          · split
            · exact servedAs_answer ..
            next cancellable => exact servedAs_ok (.cancelOne found copy (by simpa using cancellable))
      · split
        · exact servedAs_answer ..
        next filed =>
          split
          · exact servedAs_answer ..
          · exact servedAs_ok (.cancelAll found (by simpa using filed))
  · exact servedAs_answer ..

theorem servePin_served (s : State) (p : Port) (number : Half) (index target : Byte) :
    s.ServedAs p (servePin number index target s) := by
  unfold servePin
  split
  · split
    · exact servedAs_answer ..
    · split
      · exact servedAs_answer ..
      next m found =>
        split
        · exact servedAs_answer ..
        next c copy =>
          split
          · exact servedAs_answer ..
          · split
            · exact servedAs_answer ..
            next hpin =>
              simp only [Bool.or_eq_true, Bool.not_eq_true', not_or, Bool.not_eq_false] at hpin
              exact servedAs_ok (.pin found copy hpin.2)
  · exact servedAs_answer ..

theorem serveRequeue_served (s : State) (p : Port) (number : Half) (selector : Byte) :
    s.ServedAs p (serveRequeue number selector s) := by
  unfold serveRequeue
  split
  · split
    · exact servedAs_answer ..
    next m found =>
      dsimp only
      split
      · exact servedAs_answer ..
      · split
        · exact servedAs_answer ..
        next filed =>
          split
          · exact servedAs_answer ..
          · exact servedAs_ok (.requeue found (by simpa using filed))
  · exact servedAs_answer ..

theorem servePurge_served (s : State) (p : Port) (number : Half) : s.ServedAs p (servePurge number s) := by
  unfold servePurge
  split
  · exact servedAs_answer ..
  · split
    · exact servedAs_answer ..
    next m found =>
      split
      · exact servedAs_answer ..
      next filed =>
        split
        · exact servedAs_answer ..
        next free => exact servedAs_ok (.purge found (by simpa using filed) (by simpa using free))

theorem serveTakeLocal_served {s : State} {p : Port} (desk : s.roles.get p ≠ .channel) : s.ServedAs p (serveTakeLocal p s) := by
  unfold serveTakeLocal
  split
  · exact servedAs_answer ..
  next room =>
    split
    · exact servedAs_answer ..
    next x best => exact servedAs_ok (.takeLocal desk (by omega) best)

/-- What any request does to the state, once its frame has passed the test of roles. -/
theorem serveRequest_served {i : Instr} {p : Port} {f : Frame} {s : State} (hi : i.toFrame = some (p, f))
    (hrole : mayUse (s.roles.get p) f.kind = true) : s.ServedAs p (serveRequest i s) := by
  cases i <;> cases hi
  case lodgeOpen => exact serveLodgeOpen_served ..
  case report => exact serveReport_served ..
  case extend => exact serveExtend_served ..
  case ask => exact serveAsk_served ..
  case cancel => exact serveCancel_served ..
  case pin => exact servePin_served ..
  case requeue => exact serveRequeue_served ..
  case purge => exact servePurge_served ..
  case takeLocal => exact serveTakeLocal_served fun h => by rw [h] at hrole; exact absurd hrole Bool.false_ne_true
  case status => exact servedAs_answer ..
  case readCounters => exact servedAs_answer ..
  case clearEvents e => 
    show s.ServedAs p (serveClearEvents p e s)
    unfold serveClearEvents
    split
    · exact servedAs_answer ..
    · exact servedAs_ok (.clearEvents _)
  case setEventMask e =>
    show s.ServedAs p (serveSetEventMask p e s)
    unfold serveSetEventMask
    split
    · exact servedAs_answer ..
    · exact servedAs_ok (.setEventMask _)
  case readHeader n i =>
    show s.ServedAs p (serveReadHeader n i s)
    unfold serveReadHeader
    repeat' split
    all_goals exact servedAs_answer ..
  case readBody n o =>
    show s.ServedAs p (serveReadBody n o s)
    unfold serveReadBody
    repeat' split
    all_goals exact servedAs_answer ..
  case listTraffic n a b c =>
    show s.ServedAs p (serveListTraffic n a b c s)
    unfold serveListTraffic
    split
    all_goals exact servedAs_answer ..
  case readStation e =>
    show s.ServedAs p (serveReadStation e s)
    unfold serveReadStation
    repeat' split
    all_goals exact servedAs_answer ..
  case findStation c =>
    show s.ServedAs p (serveFindStation c s)
    unfold serveFindStation
    repeat' split
    all_goals exact servedAs_answer ..
  case rankQuery n i k =>
    show s.ServedAs p (serveRankQuery n i k s)
    unfold serveRankQuery
    repeat' split
    all_goals exact servedAs_answer ..
  case readHandOffList k =>
    show s.ServedAs p (serveReadHandOffList p k s)
    unfold serveReadHandOffList
    repeat' split
    all_goals exact servedAs_answer ..
  case lodgePart body =>
    show s.ServedAs p (serveLodgePart p body s)
    unfold serveLodgePart
    split
    · exact servedAs_answer ..
    next m lodged =>
      dsimp only
      split
      · exact servedAs_answer ..
      next short =>
        split
        · exact servedAs_answer ..
        next u room => exact servedAs_ok (.lodgePart lodged (by omega) room)
  case lodgeClose =>
    show s.ServedAs p (serveLodgeClose p s)
    unfold serveLodgeClose
    split
    · exact servedAs_answer ..
    next m lodged => exact servedAs_ok (.lodgeClose lodged)
  case lodgeDrop =>
    show s.ServedAs p (serveLodgeDrop p s)
    unfold serveLodgeDrop
    split
    · exact servedAs_answer ..
    next m lodged => exact servedAs_ok (.lodgeDrop lodged)
  case channelOpen =>
    show s.ServedAs p (serveChannelOpen p s)
    unfold serveChannelOpen
    split
    next closed => exact servedAs_ok (.channelOpen closed)
    all_goals exact servedAs_answer ..
  case channelClose =>
    have close : s.ServedAs p (if (s.lists.get p).isEmpty then ((s.setChan p .closed).releaseHolds p).answer .ok
        else s.answer .listNotEmpty (be8 (s.lists.get p).length)) := by
      split
      next empty => exact servedAs_ok (.channelClose (List.isEmpty_iff.mp empty))
      · exact servedAs_answer ..
    show s.ServedAs p (serveChannelClose p s)
    unfold serveChannelClose
    split
    · exact close
    · exact close
    all_goals exact servedAs_answer ..
  case withdrawAsk =>
    show s.ServedAs p (serveWithdrawAsk p s)
    unfold serveWithdrawAsk
    split
    next k g hst => exact servedAs_ok (.askEnds (.inr ⟨k, g, hst⟩))
    all_goals exact servedAs_answer ..
  case heard c g =>
    show s.ServedAs p (serveHeard p c g s)
    unfold serveHeard
    split
    · exact servedAs_answer ..
    · split
      · exact servedAs_answer ..
      · split
        · exact servedAs_answer ..
        next t e made entry => exact servedAs_ok (.heard entry)
  case setOwnCall c =>
    show s.ServedAs p (serveSetOwnCall c s)
    unfold serveSetOwnCall
    split
    · exact servedAs_answer ..
    · split
      · exact servedAs_answer ..
      all_goals exact servedAs_ok (.setOwnCall _)
  case setStation c ports g clear =>
    show s.ServedAs p (serveSetStation c ports g clear s)
    unfold serveSetStation
    split
    · exact servedAs_answer ..
    · split
      · exact servedAs_answer ..
      · split
        · exact servedAs_answer ..
        · split
          · exact servedAs_answer ..
          next t e made entry =>
            dsimp only
            split
            all_goals exact servedAs_ok (.setStation entry)
  case removeStation c =>
    show s.ServedAs p (serveRemoveStation c s)
    unfold serveRemoveStation
    split
    · exact servedAs_answer ..
    · split
      · exact servedAs_answer ..
      · split
        · exact servedAs_answer ..
        · split
          · exact servedAs_answer ..
          next unnamed => exact servedAs_ok (.removeStation (by simpa using unnamed))
  case setRanking => exact servedAs_ok (.setRanking _)
  case setDispatch => exact servedAs_ok (.setDispatch _)
  case setHandOff => exact servedAs_ok (.setHandOff ..)
  case setChannelAdmin k m =>
    show s.ServedAs p (serveSetChannelAdmin k m s)
    unfold serveSetChannelAdmin
    split
    · split
      · exact servedAs_answer ..
      · exact servedAs_ok (.setChannelAdmin _ _)
    · exact servedAs_answer ..
  case restoreChannel k =>
    show s.ServedAs p (serveRestoreChannel k s)
    unfold serveRestoreChannel
    split
    · exact servedAs_answer ..
    · split
      · exact servedAs_answer ..
      · split
        · exact servedAs_answer ..
        next lapsed => exact servedAs_ok (.restoreChannel (by simpa using lapsed))
  case setStore => exact servedAs_ok (.setStore _)
  case clearStore => exact servedAs_ok .clearStore
  case clearCounters => exact servedAs_ok .clearCounters
  case setAnnunciator a b c d =>
    show s.ServedAs p (serveSetAnnunciator a b c d s)
    unfold serveSetAnnunciator
    split
    · exact servedAs_ok (.setAnnunciator _)
    · exact servedAs_answer ..

end Sys2Proof.Machine
end

section
/-! PROOF. What no service touches: power, the clock, the roles, the lines, the queue. -/
namespace Sys2Proof.Machine

/-- The part of the state that the service of a request leaves as it is. -/
def State.fixed (s : State) : Power × Bool × Bool × Bool × Nat × PerPort Role × Rate × PerPort PortUnit × Nat × List Instr :=
  (s.power, s.resetHeld, s.latch, s.everPowered, s.clock, s.roles, s.rate, s.units, s.recovered, s.pending)

/-- A quantity that each step of a fold keeps is kept by the fold. -/
theorem foldl_keeps {α β γ : Type} {f : α → β → α} {g : α → γ} (h : ∀ a b, g (f a b) = g a) (l : List β) (a : α) :
    g (l.foldl f a) = g a := by
  induction l generalizing a with
  | nil => rfl
  | cons b l ih => rw [List.foldl_cons, ih, h]

/-! ### The shared operations -/

@[simp] theorem State.updMsg_fixed (s : State) (n : Nat) (f : Message → Message) : (s.updMsg n f).fixed = s.fixed := rfl
@[simp] theorem State.updStation_fixed (s : State) (e : Nat) (f : Station → Station) : (s.updStation e f).fixed = s.fixed := rfl
@[simp] theorem State.updEntry_fixed (s : State) (p : Port) (n i : Nat) (f : Entry → Entry) : (s.updEntry p n i f).fixed = s.fixed := rfl
@[simp] theorem State.addEntry_fixed (s : State) (p : Port) (e : Entry) : (s.addEntry p e).fixed = s.fixed := rfl
@[simp] theorem State.dropEntry_fixed (s : State) (p : Port) (n i : Nat) : (s.dropEntry p n i).fixed = s.fixed := rfl
@[simp] theorem State.updChannel_fixed (s : State) (p : Port) (f : Channel → Channel) : (s.updChannel p f).fixed = s.fixed := rfl
@[simp] theorem State.setChan_fixed (s : State) (p : Port) (x : ChanState) : (s.setChan p x).fixed = s.fixed := rfl
@[simp] theorem State.updCounters_fixed (s : State) (p : Port) (f : Counters → Counters) : (s.updCounters p f).fixed = s.fixed := rfl
@[simp] theorem State.releaseHolds_fixed (s : State) (k : Port) : (s.releaseHolds k).fixed = s.fixed := rfl
@[simp] theorem State.endStreak_fixed (s : State) (e : Nat) : (s.endStreak e).fixed = s.fixed := rfl
@[simp] theorem State.removeMsg_fixed (s : State) (n : Nat) : (s.removeMsg n).fixed = s.fixed := rfl
@[simp] theorem State.raiseWhere_fixed (s : State) (k : EventKind) (who : Port → Bool) : (s.raiseWhere k who).fixed = s.fixed := rfl
@[simp] theorem State.raiseAt_fixed (s : State) (k : EventKind) (p : Port) : (s.raiseAt k p).fixed = s.fixed := rfl
@[simp] theorem State.raiseConsoles_fixed (s : State) (k : EventKind) : (s.raiseConsoles k).fixed = s.fixed := rfl
@[simp] theorem State.raiseAll_fixed (s : State) (k : EventKind) : (s.raiseAll k).fixed = s.fixed := rfl
@[simp] theorem State.raiseConsolesIf_fixed (s : State) (c : Bool) (k : EventKind) : (s.raiseConsolesIf c k).fixed = s.fixed := by
  cases c <;> rfl
@[simp] theorem State.raiseAllIf_fixed (s : State) (c : Bool) (k : EventKind) : (s.raiseAllIf c k).fixed = s.fixed := by cases c <;> rfl
@[simp] theorem State.checkLow_fixed (s : State) : s.checkLow.fixed = s.fixed :=
  s.raiseConsolesIf_fixed (s.low && !s.prevLow) .storeLow
@[simp] theorem State.writeEntry_fixed (s : State) (e : Nat) (recycled : Bool) (st : Station) :
    (s.writeEntry e recycled st).fixed = s.fixed := by cases recycled <;> rfl
@[simp] theorem State.changeCopy_fixed (s : State) (n i : Nat) (f : Copy → Copy) : (s.changeCopy n i f).fixed = s.fixed := by
  rw [State.changeCopy_frame]; rfl
@[simp] theorem State.changeCopies_fixed (s : State) (refs : List (Nat × Nat)) (f : Copy → Copy) :
    (s.changeCopies refs f).fixed = s.fixed := foldl_keeps (fun t r => t.changeCopy_fixed r.1 r.2 f) refs s
@[simp] theorem State.handOver_fixed (s : State) (p : Port) (n i : Nat) (prec : Prec) : (s.handOver p n i prec).fixed = s.fixed := by
  rw [State.handOver_frame]; rfl
@[simp] theorem State.cancelCopy_fixed (s : State) (n i : Nat) : (s.cancelCopy n i).fixed = s.fixed := by
  unfold State.cancelCopy
  split
  · dsimp only; split <;> simp
  · rfl
@[simp] theorem State.localBack_fixed (s : State) (n i : Nat) : (s.localBack n i).fixed = s.fixed := by
  unfold State.localBack; split <;> simp
@[simp] theorem State.loseCopy_fixed (s : State) (n i : Nat) : (s.loseCopy n i).fixed = s.fixed := by
  unfold State.loseCopy; split <;> simp
@[simp] theorem State.bookOutcome_fixed (s : State) (p : Port) (e : Nat) (o : ReportOutcome) : (s.bookOutcome p e o).fixed = s.fixed := by
  cases o with
  | delivered => show (s.creditDelivery p e).fixed = _; unfold State.creditDelivery; split <;> rfl
  | noContact => show (s.debitContact p e).fixed = _; unfold State.debitContact; split <;> rfl
  | relayed | returned => rfl
@[simp] theorem State.accountGiven_fixed (s : State) (p : Port) : (s.accountGiven p).fixed = s.fixed := by
  unfold State.accountGiven
  split
  · dsimp only; split <;> rfl
  · rfl
@[simp] theorem State.purgeMsg_fixed (s : State) (m : Message) : (s.purgeMsg m).fixed = s.fixed :=
  foldl_keeps (f := fun (t : State) (c : Copy) => t.updStation c.station (Station.recount c.live false)) (g := State.fixed)
    (fun _ _ => rfl) m.copies s
@[simp] theorem State.autoPurgeOne_fixed (s : State) (m : Message) : (s.autoPurgeOne m).fixed = s.fixed := s.purgeMsg_fixed m

theorem autoPurgeRun_fixed {cond : State → Bool} {ms : List Message} {s t : State} (h : autoPurgeRun cond ms s = some t) :
    t.fixed = s.fixed := by
  induction ms generalizing s with
  | nil => cases h
  | cons m ms ih =>
    rw [autoPurgeRun] at h
    split at h
    · cases h; exact s.autoPurgeOne_fixed m
    · exact (ih h).trans (s.autoPurgeOne_fixed m)

theorem makeRoom_fixed {s t : State} {cond : State → Bool} (h : s.makeRoom cond = some t) : t.fixed = s.fixed := by
  unfold State.makeRoom at h
  split at h
  · cases h; rfl
  · split at h
    · exact autoPurgeRun_fixed h
    · cases h

@[simp] theorem State.writeResolved_fixed (s : State) (rs : List Resolved) : (s.writeResolved rs).fixed = s.fixed :=
  foldl_keeps (fun t r => by split <;> simp) rs s

theorem entryFor_fixed {s t : State} {c : Call} {k : StationKind} {e : Nat} {made : Bool} (h : s.entryFor c k = some (t, e, made)) :
    t.fixed = s.fixed := by
  unfold State.entryFor at h
  split at h
  · cases h; rfl
  · split at h
    · cases h; simp
    · cases h

/-- The service of a request leaves the fixed part of the state as it is. -/
theorem State.Serves.fixed {s t : State} {p : Port} (h : s.Serves p t) : t.fixed = s.fixed := by
  cases h with
  | lodgeOpen _ _ _ _ room =>
    refine Eq.trans ?_ (makeRoom_fixed room)
    exact (State.checkLow_fixed _).trans (State.writeResolved_fixed ..)
  | lodgePart _ _ room => 
    have hroom := makeRoom_fixed room
    exact (State.checkLow_fixed _).trans hroom
  | lodgeClose =>
    unfold State.fileMsg
    dsimp only
    rw [State.raiseConsolesIf_fixed, State.raiseAllIf_fixed, State.raiseAllIf_fixed]
    exact (foldl_keeps (f := fun (u : State) (c : Copy) => u.updStation c.station (Station.recount false true)) (g := State.fixed) (fun _ _ => rfl)
      (s.filedCopies _) _).trans rfl
  | lodgeDrop => exact State.checkLow_fixed _
  | ownReport =>
    unfold State.ownReport
    dsimp only
    split <;> simp
  | lateReport =>
    unfold State.lateReport
    dsimp only
    split <;> simp
  | heard entry =>
    have hentry := entryFor_fixed entry
    exact hentry
  | setStation entry =>
    have hentry := entryFor_fixed entry
    exact hentry
  | setDispatch d => dsimp only; split <;> rfl
  | setHandOff => exact State.changeCopies_fixed ..
  | setChannelAdmin k m =>
    unfold State.enterMode
    cases m with
    | none_ | hold | step => rfl
    | bar => dsimp only; split <;> rfl
  | cancelOne => simp
  | cancelAll => exact foldl_keeps (fun t i => t.cancelCopy_fixed _ i) _ _
  | pin => simp
  | requeue => exact foldl_keeps (fun t x => t.changeCopy_fixed _ _ _) _ _
  | takeLocal => simp
  | purge => simp
  | clearStore => exact State.checkLow_fixed _
  | _ => rfl

theorem serveRequest_fixed {i : Instr} {p : Port} {f : Frame} {s : State} (hi : i.toFrame = some (p, f))
    (hrole : mayUse (s.roles.get p) f.kind = true) : (serveRequest i s).1.fixed = s.fixed := by
  rcases serveRequest_served hi hrole with hsame | ⟨hserves, -⟩
  · rw [hsame]
  · exact hserves.fixed

end Sys2Proof.Machine
end

section
/-! PROOF. What one command can do behind the lines, said once. A command either leaves all there as it was, or is one act: the service of a request,
a discarded frame, an event of the part's own, or a change of its supplies. -/
namespace Sys2Proof.Machine

/-- Start-up ended with RESET not asserted, but for the receivers (R183). -/
def State.begun (s : State) (warm failed : Bool) : State :=
  let t := { s with resetHeld := false }.endEvents warm failed
  { t.decayAll t.dispatch.decay with power := .running }

/-- The acts that a command can be, behind the lines and the outputs, each with the tests that lead to it. -/
inductive State.Acts (s : State) : State → Prop
  | same : s.Acts s
  | serves {p : Port} {t : State} (hears : s.hears p = true) (h : s.Serves p t) : s.Acts t
  | linkFault {p : Port} (hears : s.hears p = true) (cause : LinkCause) : s.Acts (s.linkFault p cause)
  | grant (inService : s.inService = true) : s.Acts s.takeGrant
  | openTimeout (inService : s.inService = true) (p : Port) : s.Acts (s.expireOpen p)
  | deadline (inService : s.inService = true) (p : Port) (n i : Nat) : s.Acts (s.expireEntry p n i)
  | holdEnd (inService : s.inService = true) (n i : Nat) : s.Acts (s.endHold n i)
  | decay (inService : s.inService = true) (e : Nat) (p : Port) : s.Acts (s.decayGrade e p)
  | tick (powered : s.powered = true) : s.Acts { s with clock := later s.clock 1 }
  | backupLost (unpowered : s.powered = false) : s.Acts { s with latch := true }
  | resetHeld (held : Bool) : s.Acts { s with resetHeld := held }
  | coldStart (unpowered : s.powered = false) (x : Straps) :
      s.Acts ({ s with latch := s.latch || !s.everPowered, everPowered := true }.coldStart x)
  | warmStart (unpowered : s.powered = false) (x : Straps) :
      s.Acts ({ s with latch := s.latch || !s.everPowered, everPowered := true }.warmStart x)
  | reset (powered : s.powered = true) (x : Straps) : s.Acts ({ s with resetHeld := true }.warmStart x)
  | losePower (powered : s.powered = true) :
      s.Acts { s.clearVolatile with power := .unpowered, roles := .same Role.off, rate := .baud19200, enable := .same 0 }
  | begin {warm failed : Bool} (startUp : s.power = .startUp warm failed) : s.Acts (s.begun warm failed)

/-- `t` comes from `s` by one act, with the lines and the outputs left out of account. -/
def State.ActsBehind (s t : State) : Prop := ∃ s' u : State, s'.behind = s.behind ∧ s'.Acts u ∧ t.behind = u.behind

theorem actsBehind_of_acts {s t : State} (h : s.Acts t) : s.ActsBehind t := ⟨s, t, rfl, h, rfl⟩

theorem actsBehind_of_behind {s t : State} (h : t.behind = s.behind) : s.ActsBehind t := ⟨s, s, rfl, .same, h⟩

theorem State.ActsBehind.of_behind_left {s s' t : State} (h : s'.ActsBehind t) (hs : s'.behind = s.behind) : s.ActsBehind t := by
  obtain ⟨v, u, hv, hacts, ht⟩ := h
  exact ⟨v, u, hv.trans hs, hacts, ht⟩

theorem State.ActsBehind.of_behind_right {s t t' : State} (h : s.ActsBehind t) (ht : t'.behind = t.behind) : s.ActsBehind t' := by
  obtain ⟨v, u, hv, hacts, hu⟩ := h
  exact ⟨v, u, hv, hacts, ht.trans hu⟩

/-! ### Frames -/

/-- What a frame of a request is served by does one of the effects of requests, once the test of roles is passed. -/
theorem serveFrame_served {p : Port} {f : Frame} {s : State} (hrole : mayUse (s.roles.get p) f.kind = true) :
    s.ServedAs p (serveFrame p f s) := by
  unfold serveFrame
  split
  next c hc => exact serveRequest_served (toFrame_of_decodeFrame hc).1 hrole
  next => exact servedAs_answer ..

/-- A frame taken into service. -/
theorem intoService_acts {s : State} {p : Port} {f : Frame} {serve : State → State × Answer} (hears : s.hears p = true)
    (hserve : mayUse (s.roles.get p) f.kind = true → s.ServedAs p (serve s)) : s.ActsBehind (s.intoService p f serve) := by
  unfold State.intoService State.decodeTests
  dsimp only
  split
  · exact actsBehind_of_behind rfl
  · split
    · exact actsBehind_of_behind rfl
    next hrole =>
      split
      · exact actsBehind_of_behind rfl
      · rcases hserve (by simpa using hrole) with hsame | ⟨hserves, -⟩
        · rw [hsame]; exact actsBehind_of_behind rfl
        · exact ⟨s, _, rfl, .serves hears hserves, rfl⟩

theorem arrive_acts {s : State} {p : Port} {f : Frame} {serve : State → State × Answer} (hears : s.hears p = true)
    (hserve : mayUse (s.roles.get p) f.kind = true → s.ServedAs p (serve s)) : s.ActsBehind (s.arrive p f serve) := by
  unfold State.arrive
  split
  · exact intoService_acts hears hserve
  · exact actsBehind_of_behind rfl
  · exact actsBehind_of_acts (.linkFault hears _)

theorem setReceiver_acts {s : State} {p : Port} (r : Receiver) : s.ActsBehind (s.setReceiver p r) := actsBehind_of_behind rfl

theorem faultTo_acts {s : State} {p : Port} (hears : s.hears p = true) (cause : LinkCause) (r : Receiver) :
    s.ActsBehind (s.faultTo p cause r) := ⟨s, _, rfl, .linkFault hears cause, rfl⟩

theorem frameComplete_acts {s : State} {p : Port} (hears : s.hears p = true) (contents : List Byte) :
    s.ActsBehind (s.frameComplete p contents) := by
  unfold State.frameComplete
  dsimp only
  split
  next kind tag fields =>
    have harrive := arrive_acts (s := s.setReceiver p .hunting) (f := ⟨kind, tag, fields⟩) hears serveFrame_served
    exact harrive.of_behind_left rfl
  · exact setReceiver_acts _

theorem receive_acts {s : State} {p : Port} (hears : s.hears p = true) (b : Byte) : s.ActsBehind (s.receive p b) := by
  unfold State.receive
  split
  · exact actsBehind_of_behind rfl
  · split
    · exact setReceiver_acts _
    · exact actsBehind_of_behind rfl
  · split
    · exact faultTo_acts hears ..
    · split
      · exact faultTo_acts hears ..
      · exact setReceiver_acts _
  · dsimp only
    split
    · exact frameComplete_acts hears _
    · exact setReceiver_acts _
  · exact setReceiver_acts _

theorem endService_acts {s : State} {p : Port} (hears : s.hears p = true) : s.ActsBehind (s.endService p) := by
  unfold State.endService
  split
  · dsimp only
    split
    next f hf =>
      have hinto := intoService_acts (s := s.updUnit p fun u => { u with service := none, held := none }) (f := f) hears serveFrame_served
      exact hinto.of_behind_left rfl
    · exact actsBehind_of_behind rfl
  · exact actsBehind_of_behind rfl
  · exact actsBehind_of_behind rfl

/-! ### Commands -/

/-- A command answers with a state that one act gives; it closes the event there, or leaves the outputs in agreement where they were. -/
def State.ActsBy (s : State) (c : Instr) : Prop :=
  ∃ t, exec c s = .next t ∧ s.ActsBehind t ∧ (s.outputsAgree → t.outputsAgree)

theorem actsBy_of_finish {c : Instr} {s u : State} (h : exec c s = .next u.finish) (hu : s.ActsBehind u) : s.ActsBy c :=
  ⟨_, h, hu.of_behind_right (State.finish_behind u), fun _ => State.finish_outputs u⟩

theorem actsBy_of_same {c : Instr} {s : State} (h : exec c s = .next s) : s.ActsBy c := ⟨s, h, actsBehind_of_behind rfl, id⟩

theorem actsBy_of_event {c : Instr} {s : State} {f : State → State} (h : exec c s = event s f)
    (hf : s.inService = true → s.Acts (f s)) : s.ActsBy c := by
  unfold event at h
  split at h
  next hs => exact actsBy_of_finish h (actsBehind_of_acts (hf hs))
  next => exact actsBy_of_same h

theorem actsBy_of_arrival {c : Instr} {s : State} {p : Port} {f : State → State} (h : exec c s = arrival s p f)
    (hf : s.hears p = true → s.ActsBehind (f s)) : s.ActsBy c := by
  unfold arrival at h
  split at h
  next hs => exact actsBy_of_finish h (hf hs)
  next => exact actsBy_of_same h

theorem actsBy_of_request {c : Instr} {p : Port} {f : Frame} (hc : c.toFrame = some (p, f)) (s : State) : s.ActsBy c := by
  have h := exec_request hc s
  by_cases hears : s.hears p = true
  · rw [submit_of_hears hears] at h
    exact actsBy_of_finish h (arrive_acts hears (serveRequest_served hc))
  · rw [submit_of_not_hears (by simpa using hears)] at h
    exact actsBy_of_same h

theorem execMainPowerApplied_acts (s : State) (x : Straps) : s.ActsBy (Instr.mainPowerApplied x) := by
  have h : exec (.mainPowerApplied x) s = .next (s.applyPower x) := rfl
  unfold State.applyPower at h
  split at h
  next => exact actsBy_of_same h
  next hp =>
    refine actsBy_of_finish h ?_
    rw [Bool.not_eq_true] at hp
    split
    · exact actsBehind_of_acts (.coldStart hp x)
    · exact actsBehind_of_acts (.warmStart hp x)

theorem execResetAsserted_acts (s : State) (x : Straps) : s.ActsBy (Instr.resetAsserted x) := by
  have h : exec (.resetAsserted x) s = .next (s.assertReset x) := rfl
  unfold State.assertReset at h
  dsimp only at h
  split at h
  next hp => exact actsBy_of_finish h (actsBehind_of_acts (.reset hp x))
  next => exact ⟨_, h, actsBehind_of_acts (.resetHeld true), id⟩

theorem execMainPowerLost_acts (s : State) : s.ActsBy .mainPowerLost := by
  have h : exec .mainPowerLost s = .next s.losePower := rfl
  unfold State.losePower at h
  split at h
  next hp => exact actsBy_of_finish h (actsBehind_of_acts (.losePower hp))
  next => exact actsBy_of_same h

theorem execStartUpEnd_acts (s : State) (held : Bool) : s.ActsBy (Instr.startUpEnd held) := by
  have h : exec (.startUpEnd held) s = .next (s.endStartUp held) := rfl
  unfold State.endStartUp at h
  split at h
  next warm failed hpower =>
    dsimp only at h
    split at h
    next => exact ⟨_, h, actsBehind_of_acts (.resetHeld held), id⟩
    next hheld =>
      rw [Bool.not_eq_true] at hheld
      subst hheld
      exact actsBy_of_finish h ⟨s, _, rfl, .begin hpower, rfl⟩
  · exact actsBy_of_same h
  · exact actsBy_of_same h

/-- Every command is one act behind the lines. -/
theorem exec_acts (c : Instr) (s : State) : s.ActsBy c := by
  cases c
  case grant => exact actsBy_of_event (f := State.takeGrant) rfl .grant
  case openTimeoutExpiry p => exact actsBy_of_event (f := fun t => t.expireOpen p) rfl fun h => .openTimeout h p
  case deadlineExpiry p n i => exact actsBy_of_event (f := fun t => t.expireEntry p n i) rfl fun h => .deadline h p n i
  case holdEnd n i => exact actsBy_of_event (f := fun t => t.endHold n i) rfl fun h => .holdEnd h n i
  case decay e p => exact actsBy_of_event (f := fun t => t.decayGrade e p) rfl fun h => .decay h e p
  case receiveCharacter p b => exact actsBy_of_arrival (f := fun t => t.receive p b) rfl fun h => receive_acts h b
  case replySent p => exact actsBy_of_arrival (f := fun t => t.endService p) rfl endService_acts
  case framingError p =>
    refine actsBy_of_arrival (f := fun t => t.receiveFraming p) rfl fun h => ?_
    unfold State.receiveFraming
    split
    · exact actsBehind_of_behind rfl
    · exact faultTo_acts h ..
    all_goals exact setReceiver_acts _
  case lineBreak p =>
    refine actsBy_of_arrival (f := fun t => t.receiveBreak p) rfl fun h => ?_
    unfold State.receiveBreak
    split
    · exact actsBehind_of_behind rfl
    · exact faultTo_acts h ..
    all_goals exact setReceiver_acts _
  case frameGapExpiry p =>
    refine actsBy_of_arrival (f := fun t => t.receiveGap p) rfl fun h => ?_
    unfold State.receiveGap
    split
    iterate 3 exact actsBehind_of_behind rfl
    · exact faultTo_acts h ..
    · exact setReceiver_acts _
  case lineReturnsToMark p =>
    refine actsBy_of_arrival (f := fun t => t.receiveMark p) rfl fun h => ?_
    unfold State.receiveMark
    split
    · exact setReceiver_acts _
    all_goals exact actsBehind_of_behind rfl
  case storeClockTick =>
    have h : exec .storeClockTick s = execStoreClockTick s := rfl
    unfold execStoreClockTick at h
    split at h
    next hp => exact ⟨_, h, actsBehind_of_acts (.tick hp), id⟩
    next => exact actsBy_of_same h
  case backupSupplyLost =>
    have h : exec .backupSupplyLost s = execBackupSupplyLost s := rfl
    unfold execBackupSupplyLost at h
    split at h
    next => exact actsBy_of_same h
    next hp => exact ⟨_, h, actsBehind_of_acts (.backupLost (by simpa using hp)), id⟩
  case mainPowerApplied x => exact execMainPowerApplied_acts s x
  case resetAsserted x => exact execResetAsserted_acts s x
  case mainPowerLost => exact execMainPowerLost_acts s
  case startUpEnd held => exact execStartUpEnd_acts s held
  all_goals exact actsBy_of_request rfl s

/-! ### The queue -/

theorem makeGrant_pending (s : State) (c : Choice) : (s.makeGrant c).pending = s.pending := by
  have hrotation (t : State) : (t.moveRotation c).pending = t.pending := by
    unfold State.moveRotation; split <;> rfl
  have hover := congrArg (fun x => x.2.2.2.2.2.2.2.2.2) (s.handOver_fixed c.port c.cand.msg.number c.cand.index c.cand.msg.prec)
  exact (hrotation _).trans hover

@[simp] theorem State.lapse_fixed (s : State) (p : Port) : (s.lapse p).fixed = s.fixed :=
  foldl_keeps (fun (t : State) (e : Entry) => t.loseCopy_fixed e.number e.index) (s.lists.get p)
    (s.updChannel p fun c => { c with state := .lapsed })

@[simp] theorem State.countLapse_fixed (s : State) (p : Port) : (s.countLapse p).fixed = s.fixed := by
  unfold State.countLapse
  split
  · dsimp only; split <;> simp
  · rfl

theorem State.expireEntry_fixed (s : State) (p : Port) (n i : Nat) : (s.expireEntry p n i).fixed = s.fixed := by
  unfold State.expireEntry
  split
  · rfl
  · split
    · simp
    · rfl

theorem State.expireOpen_fixed (s : State) (p : Port) : (s.expireOpen p).fixed = s.fixed := by
  unfold State.expireOpen
  split
  · split
    · exact State.checkLow_fixed _
    · rfl
  · rfl

theorem State.endHold_fixed (s : State) (n i : Nat) : (s.endHold n i).fixed = s.fixed := by
  unfold State.endHold
  split
  · split <;> simp
  · rfl

theorem State.decayGrade_fixed (s : State) (e : Nat) (p : Port) : (s.decayGrade e p).fixed = s.fixed := by
  unfold State.decayGrade
  split
  · rfl
  · split <;> rfl

theorem State.endEvents_fixed (s : State) (warm failed : Bool) : (s.endEvents warm failed).fixed = s.fixed := by
  unfold State.endEvents; simp

theorem pending_of_fixed {s t : State} (h : t.fixed = s.fixed) : t.pending = s.pending :=
  congrArg (fun x => x.2.2.2.2.2.2.2.2.2) h

theorem pending_of_behind {s t : State} (h : t.behind = s.behind) : t.pending = s.pending :=
  show t.behind.pending = s.behind.pending by rw [h]

/-- No act touches the queue. -/
theorem State.Acts.pending_eq {s t : State} (h : s.Acts t) : t.pending = s.pending := by
  cases h with
  | serves _ h => exact pending_of_fixed h.fixed
  | grant =>
    unfold State.takeGrant
    split
    · exact makeGrant_pending ..
    · rfl
  | openTimeout _ p => exact pending_of_fixed (s.expireOpen_fixed p)
  | deadline _ p n i => exact pending_of_fixed (s.expireEntry_fixed p n i)
  | holdEnd _ n i => exact pending_of_fixed (s.endHold_fixed n i)
  | decay _ e p => exact pending_of_fixed (s.decayGrade_fixed e p)
  | @begin warm failed _ =>
    have hevents := pending_of_fixed (State.endEvents_fixed { s with resetHeld := false } warm failed)
    exact hevents
  | _ => rfl

theorem State.ActsBehind.pending_eq {s t : State} (h : s.ActsBehind t) : t.pending = s.pending := by
  obtain ⟨s', u, hs, hacts, ht⟩ := h
  rw [pending_of_behind ht, hacts.pending_eq, pending_of_behind hs]

/-- Settles O2: every command is an act behind the lines, and no act touches the queue. -/
theorem everyCommandAnswersAndLeavesTheQueue : Obligations.EveryCommandAnswersAndLeavesTheQueue := by
  intro c s
  obtain ⟨t, hexec, hacts, -⟩ := exec_acts c s
  exact ⟨t, hexec, hacts.pending_eq⟩

/-- Settles O1. -/
theorem stepRunsTheFrontCommand : Obligations.StepRunsTheFrontCommand := by
  refine ⟨fun s c rest h => by simp [step, h], fun s h => ⟨s.sendLines, by simp [step, h], rfl, fun q => ⟨?_, ?_⟩⟩⟩
  · intro f reply gone hears hservice hgone
    rw [State.sendLines_unit, if_pos hears, hservice]
    simp [Service.sendByte, hgone]
  · intro hidle
    rw [State.sendLines_unit]
    split
    next hears =>
      have hlast := hidle.resolve_left (by simp [hears])
      have hservice : (s.serviceOf q).map Service.sendByte = s.serviceOf q := by
        cases hs : s.serviceOf q with
        | none => rfl
        | some x =>
          cases x with
          | asking => rfl
          | replying f reply gone =>
            have := hlast f reply gone hs
            simp [Service.sendByte, show ¬ gone + 1 < reply.length by omega]
      rw [hservice]
      rfl
    next => rfl

/-! ### Refusals -/

/-- The result codes, each at its value. -/
def resultsInOrder : List Result :=
  [.ok, .badKind, .badField, .notRole, .noSuch, .state, .full, .bookFull, .duplicate, .inUse, .barred, .lapsed, .notHeld,
    .lateAccepted, .already, .limit, .tooLong, .noOpen, .none_, .listNotEmpty]

theorem resultsInOrder_resultCode (r : Result) : resultsInOrder[(resultCode r).toNat]? = some r := by cases r <;> rfl

theorem resultCode_injective {r r' : Result} (h : resultCode r = resultCode r') : r = r' := by
  have hr := resultsInOrder_resultCode r
  rw [h, resultsInOrder_resultCode] at hr
  exact (Option.some.inj hr).symm

theorem replyFrame_result {f : Frame} {r r' : Result} {fields fields' : List Byte} (h : replyFrame f r fields = replyFrame f r' fields') :
    r = r' := by
  simp only [replyFrame, List.cons.injEq] at h
  exact resultCode_injective h.2.2.2.2.1

/-- The result that stands in the reply at the close of an event is that of the answer; an ASK that stands is answered OK. -/
theorem closeAsk_serviceFor {s : State} {p : Port} {f : Frame} {a : Answer} {r : Result} {fields : List Byte} {gone : Nat}
    (h : s.closeAsk p (some (serviceFor f a)) = some (.replying f (replyFrame f r fields) gone)) :
    (∃ fields', a = .reply r fields') ∨ r = .ok := by
  cases a with
  | reply r' fields' =>
    simp only [serviceFor, State.closeAsk_replying, Option.some.injEq, Service.replying.injEq, true_and] at h
    exact .inl ⟨fields', by rw [replyFrame_result h.1]⟩
  | askStands clamped stood filter =>
    simp only [serviceFor, State.closeAsk] at h
    split at h
    · cases h
    · simp only [Option.some.injEq, Service.replying.injEq, true_and] at h
      exact .inr (replyFrame_result h.1).symm

/-- Settles O9: what a service changes, it answers OK, LATE ACCEPTED or DUPLICATE. -/
theorem refusalsChangeNothing : Obligations.RefusalsChangeNothing := by
  intro i p f s t r fields gone hi hfree hexec hservice hok hlate hdup
  rw [exec_request hi, submit_free hfree, Host.Outcome.next.injEq] at hexec
  subst hexec
  rw [State.finish_behind]
  unfold State.serviceOf at hservice
  rw [State.finish_unit] at hservice
  unfold State.intoService State.decodeTests at hservice ⊢
  dsimp only at hservice ⊢
  split at hservice
  · next hkind => rw [if_pos hkind]; rfl
  next hkind =>
    rw [if_neg hkind]
    split at hservice
    · next hrole => rw [if_pos hrole]; rfl
    next hrole =>
      rw [if_neg hrole]
      split at hservice
      · next hlength => rw [if_pos hlength]; rfl
      next hlength =>
        rw [if_neg hlength]
        rcases serveRequest_served hi (by simpa using hrole) with hsame | ⟨-, hresult⟩
        · rw [hsame]; rfl
        · simp only [State.serviceOf, State.updUnit_units, PerPort.get_set_self, State.closeAsk_updUnit] at hservice
          rcases closeAsk_serviceFor hservice with ⟨fields', hanswer⟩ | rfl
          · rcases hresult _ _ hanswer with rfl | rfl | rfl
            · exact absurd rfl hok
            · exact absurd rfl hlate
            · exact absurd rfl hdup
          · exact absurd rfl hok

end Sys2Proof.Machine
end

section
/-! PROOF. A frame received character by character, and frames held, overrun and taken at a busy port (R157 to R165). -/
namespace Sys2Proof.Machine

/-! ### A frame received character by character -/

/-- The fields of a request take at most 68 bytes (R184). -/
theorem length_fields_le {i : Instr} {p : Port} {f : Frame} (hi : i.toFrame = some (p, f)) (hw : i.wellFormed = true) :
    f.fields.length ≤ 68 := by
  cases i <;> cases hi
  case lodgeOpen =>
    simp only [Instr.wellFormed, Bool.and_eq_true, callField, beq_iff_eq, decide_eq_true_eq] at hw
    obtain ⟨⟨⟨horigin, hcalls⟩, -⟩, height⟩ := hw
    simp only [List.length_cons, List.length_append, Laws.length_flatten_calls hcalls, horigin, List.length_nil]
    omega
  case lodgePart =>
    simp only [Instr.wellFormed, Bool.and_eq_true, decide_eq_true_eq] at hw
    exact hw.2.trans (by decide)
  all_goals simp [Instr.wellFormed, callField] at hw ⊢
  all_goals omega

/-- A receiver moved closes no ASK and changes no output, so the close of the event is that of the state before. -/
theorem setReceiver_finish (s : State) (p : Port) (r : Receiver) : (s.setReceiver p r).finish = s.finish.setReceiver p r := by
  have hunits : (s.setReceiver p r).finish.units = (s.finish.setReceiver p r).units := PerPort.ext_get fun q => by
    rw [State.finish_unit, setReceiver_units, PerPort.get_set, setReceiver_units, PerPort.get_set, State.finish_unit]
    by_cases hq : q = p
    · subst hq; simp [State.serviceOf, setReceiver_units]; rfl
    · rw [State.finish_unit, if_neg hq, if_neg hq]
      simp [State.serviceOf, setReceiver_units, PerPort.get_set_ne _ _ hq]; rfl
  rw [State.finish_eq] at hunits
  rw [State.finish_eq, State.finish_eq s] at *
  exact congrArg (fun u => { s with
    units := u, attention := .build s.attentionOf, annOut := s.annFns.map fun f => s.inService && s.annHolds f }) hunits

theorem receiveAll_cons {s t : State} {p : Port} {b : Byte} (h : exec (.receiveCharacter p b) s = .next t) (bs : List Byte) :
    receiveAll p (b :: bs) s = receiveAll p bs t := by
  simp only [receiveAll, h]

/-- The contents of a frame, all but the last character of them taken, one by one. -/
theorem receiveAll_contents {s : State} {p : Port} (hears : s.hears p = true) (hup : s.finish = s) {n : Nat} (bs : List Byte)
    (hne : bs ≠ []) (got : List Byte) (hn : n = got.length + bs.length) :
    receiveAll p bs (s.setReceiver p (.inFrame (some n) got)) = .next (s.frameComplete p (got ++ bs)).finish := by
  have hreceiver (g : List Byte) := setReceiver_receiver s p (.inFrame (some n) g)
  have hexec (g : List Byte) (b : Byte) := PortUnit.exec_receiveCharacter (s := s.setReceiver p (.inFrame (some n) g)) (p := p) hears b
  induction bs generalizing got with
  | nil => exact absurd rfl hne
  | cons b bs ih =>
    rw [receiveAll_cons (hexec got b), receive_contents (hreceiver got) b]
    cases bs with
    | nil =>
      rw [if_pos (by simp at hn; omega)]
      unfold State.frameComplete
      rw [setReceiver_setReceiver]
      rfl
    | cons c cs =>
      rw [if_neg (by simp at hn; omega), setReceiver_setReceiver, setReceiver_finish, hup, ih (by simp) _ (by simp at hn ⊢; omega),
        List.append_assoc, List.singleton_append]

/-- Settles O4: start mark, length and contents are taken one by one, and the last of them hands the frame over. -/
theorem receivingAFrameIsItsCommand : Obligations.ReceivingAFrameIsItsCommand := by
  intro i p f s hw hi hears hhunting hup
  have hlength := length_fields_le hi hw
  have hcount : (BitVec.ofNat 8 (2 + f.fields.length)).toNat = 2 + f.fields.length := by
    rw [BitVec.toNat_ofNat]; exact Nat.mod_eq_of_lt (by omega)
  have hstart : exec (.receiveCharacter p Config.startMark) s = .next (s.setReceiver p (.inFrame none [])) := by
    rw [PortUnit.exec_receiveCharacter hears, receive_hunting hhunting, if_pos (by simp), setReceiver_finish, hup]
  have hcounted : exec (.receiveCharacter p (BitVec.ofNat 8 (2 + f.fields.length))) (s.setReceiver p (.inFrame none []))
      = .next (s.setReceiver p (.inFrame (some (2 + f.fields.length)) [])) := by
    rw [PortUnit.exec_receiveCharacter (s := s.setReceiver p (.inFrame none [])) hears, PortUnit.receive_length (setReceiver_receiver s p _), hcount, if_neg (by omega),
      if_neg (by omega), setReceiver_setReceiver, setReceiver_finish, hup]
  rw [onLine, receiveAll_cons hstart, receiveAll_cons hcounted,
    receiveAll_contents hears hup _ (by simp) [] (by simp; omega), exec_request hi, submit_of_hears hears]
  simp only [List.nil_append, State.frameComplete, serveFrame_of_toFrame hi hw]
  rw [setReceiver_self hhunting]

/-! ### A busy port -/

/-- Settles O5. -/
theorem framesAreHeldOverrunAndTaken : Obligations.FramesAreHeldOverrunAndTaken := by
  refine ⟨fun i p f s hi => ⟨fun hdeaf => ?_, fun hears hbusy hheld => ?_, fun hears hbusy hheld => ?_⟩, ?_⟩
  · rw [exec_request hi, submit_of_not_hears hdeaf]
  · obtain ⟨x, hx⟩ := Option.isSome_iff_exists.mp hbusy
    have harrive : s.arrive p f (serveRequest i) = s.updUnit p fun u => { u with held := some f } := by
      unfold State.serviceOf at hx; simp only [State.arrive, hx, hheld]
    have hexec : exec i s = .next (s.updUnit p fun u => { u with held := some f }).finish := by
      rw [exec_request hi, submit_of_hears hears, harrive]
    exact ⟨_, hexec, State.finish_behind _, State.finish_lineEvent rfl⟩
  · obtain ⟨x, hx⟩ := Option.isSome_iff_exists.mp hbusy
    obtain ⟨g, hg⟩ := Option.isSome_iff_exists.mp hheld
    have harrive : s.arrive p f (serveRequest i) = s.linkFault p .overrun := by
      unfold State.serviceOf at hx; simp only [State.arrive, hx, hg]
    have hexec : exec i s = .next (s.linkFault p .overrun).finish := by rw [exec_request hi, submit_of_hears hears, harrive]
    rw [linkFault_eq hears] at hexec
    exact ⟨_, hexec, State.finish_behind _, State.finish_lineEvent rfl⟩
  · intro p s f b gone hears hservice
    unfold State.serviceOf at hservice
    have hend := exec_replySent hears
    refine ⟨fun hheld => ?_, fun i g hw hi hheld => ?_, ?_⟩
    · have hfree : s.endService p = s.updUnit p fun u => { u with service := none, held := none } := by
        simp only [State.endService, hservice, hheld]
      rw [hfree] at hend
      refine ⟨_, hend, State.finish_behind _, State.finish_lineEvent ?_⟩
      exact congrArg (s.units.set p) (by rw [← hheld])
    · have hinto : s.endService p = (s.updUnit p fun u => { u with service := none, held := none }).intoService p g (serveFrame p g) := by
        simp only [State.endService, hservice, hheld]
      have hfree : (s.updUnit p fun u => { u with service := none, held := none }).serviceOf p = none := by simp [State.serviceOf]
      rw [hend, hinto, exec_request hi, submit_of_hears (s := s.updUnit p _) hears, arrive_free hfree, serveFrame_of_toFrame hi hw]
    · intro g hheld refused
      have hinto : s.endService p = (s.updUnit p fun u => { u with service := none, held := none }).intoService p g (serveFrame p g) := by
        simp only [State.endService, hservice, hheld]
      rw [hinto] at hend
      have refusal {r : Result} (h : (s.updUnit p fun u => { u with service := none, held := none }).decodeTests p g (serveFrame p g)
          = (s.updUnit p fun u => { u with service := none, held := none }).answer r []) : refused r := by
        obtain ⟨hbehind, hanswers⟩ := intoService_answers h rfl
        exact ⟨_, hend, hbehind, hanswers⟩
      exact ⟨fun h => refusal (decodeTests_badKind _ h), fun h hrole => refusal (decodeTests_notRole _ h hrole),
        fun h hrole hlength => refusal (decodeTests_badLength _ h hrole hlength)⟩

end Sys2Proof.Machine
end

section
/-! PROOF. The change of one copy, and what it does where the copy stays live and in no list (R5, R57, R63, R70, R114). -/
namespace Sys2Proof.Machine

/-! ### What closing an event leaves -/

@[simp] theorem State.finish_store (s : State) : s.finish.store = s.store := by rw [State.finish_eq]
@[simp] theorem State.finish_book (s : State) : s.finish.book = s.book := by rw [State.finish_eq]
@[simp] theorem State.finish_lists (s : State) : s.finish.lists = s.lists := by rw [State.finish_eq]
@[simp] theorem State.finish_status (s : State) : s.finish.status = s.status := by rw [State.finish_eq]
@[simp] theorem State.finish_channels (s : State) : s.finish.channels = s.channels := by rw [State.finish_eq]
@[simp] theorem State.finish_streak (s : State) : s.finish.streak = s.streak := by rw [State.finish_eq]
@[simp] theorem State.finish_firstPtr (s : State) : s.finish.firstPtr = s.firstPtr := by rw [State.finish_eq]
@[simp] theorem State.finish_tierBPtr (s : State) : s.finish.tierBPtr = s.tierBPtr := by rw [State.finish_eq]
@[simp] theorem State.finish_lodges (s : State) : s.finish.lodges = s.lodges := by rw [State.finish_eq]
@[simp] theorem State.finish_dupTable (s : State) : s.finish.dupTable = s.dupTable := by rw [State.finish_eq]
@[simp] theorem State.finish_ring (s : State) : s.finish.ring = s.ring := by rw [State.finish_eq]
@[simp] theorem State.finish_handOff (s : State) : s.finish.handOff = s.handOff := by rw [State.finish_eq]
@[simp] theorem State.finish_dispatch (s : State) : s.finish.dispatch = s.dispatch := by rw [State.finish_eq]
@[simp] theorem State.finish_lastNumber (s : State) : s.finish.lastNumber = s.lastNumber := by rw [State.finish_eq]
@[simp] theorem State.finish_prevLow (s : State) : s.finish.prevLow = s.prevLow := by rw [State.finish_eq]
@[simp] theorem State.finish_admin (s : State) : s.finish.admin = s.admin := by rw [State.finish_eq]
@[simp] theorem State.finish_clock (s : State) : s.finish.clock = s.clock := by rw [State.finish_eq]
@[simp] theorem State.finish_roles (s : State) : s.finish.roles = s.roles := by rw [State.finish_eq]

/-! ### What each step of a change touches -/

@[simp] theorem State.followHolder_store (s : State) (n i : Nat) (c d : Copy) : (s.followHolder n i c d).store = s.store := by
  unfold State.followHolder
  split
  · rfl
  · split
    · split <;> rfl
    · rfl
@[simp] theorem State.followHolder_book (s : State) (n i : Nat) (c d : Copy) : (s.followHolder n i c d).book = s.book := by
  unfold State.followHolder
  split
  · rfl
  · split
    · split <;> rfl
    · rfl
@[simp] theorem State.followHolder_status (s : State) (n i : Nat) (c d : Copy) : (s.followHolder n i c d).status = s.status := by
  unfold State.followHolder
  split
  · rfl
  · split
    · split <;> rfl
    · rfl
@[simp] theorem State.followHolder_roles (s : State) (n i : Nat) (c d : Copy) : (s.followHolder n i c d).roles = s.roles := by
  unfold State.followHolder
  split
  · rfl
  · split
    · split <;> rfl
    · rfl

theorem State.followHolder_none {s : State} {n i : Nat} {c : Copy} (h : c.holder = none) (d : Copy) : s.followHolder n i c d = s := by
  simp only [State.followHolder, h]

theorem State.raiseConsolesIf_status (s : State) (b : Bool) {k : EventKind} (hk : k ≠ .granted) :
    (s.raiseConsolesIf b k).status = if b then s.statusAt k s.isConsole else s.status := by
  cases b
  · rfl
  · exact s.raiseConsoles_status hk

/-! ### The change, field by field -/

section
variable {s : State} {n i : Nat} {c : Copy}

/-- The message of a changed copy as the change leaves it. -/
def Message.withCopy (now i : Nat) (d : Copy) (m : Message) : Message := Message.rephase now { m with copies := m.copies.set i d }

theorem changeCopy_store (h : s.copyAt n i = some c) (f : Copy → Copy) :
    (s.changeCopy n i f).store = (s.updMsg n (Message.withCopy s.clock i (f c))).store := by
  simp only [State.changeCopy, h, State.raiseConsolesIf_store, State.followHolder_store]
  rfl

theorem changeCopy_book (h : s.copyAt n i = some c) (f : Copy → Copy) :
    (s.changeCopy n i f).book = s.book.modify c.station (Option.map (Station.recount c.live (f c).live)) := by
  simp only [State.changeCopy, h, State.raiseConsolesIf_book, State.followHolder_book]
  rfl

theorem changeCopy_lists (h : s.copyAt n i = some c) (f : Copy → Copy) :
    (s.changeCopy n i f).lists = (s.followHolder n i c (f c)).lists := by
  simp only [State.changeCopy, h, State.raiseConsolesIf_lists]
  unfold State.followHolder
  split
  · rfl
  · split
    · split <;> rfl
    · rfl

theorem changeCopy_status (h : s.copyAt n i = some c) (f : Copy → Copy) :
    (s.changeCopy n i f).status =
      if (f c).state = some .failed ∧ c.state ≠ some .failed then s.statusAt .copyFailed s.isConsole else s.status := by
  simp only [State.changeCopy, h]
  rw [State.raiseConsolesIf_status _ _ (by decide)]
  simp only [Bool.and_eq_true, beq_iff_eq, bne_iff_ne, State.followHolder_status]
  refine if_congr Iff.rfl ?_ rfl
  simp only [State.statusAt, State.isConsole, State.followHolder_status, State.followHolder_roles]
  rfl

theorem rephase_number (now : Nat) (m : Message) : (Message.rephase now m).number = m.number := by
  unfold Message.rephase; split <;> (try split) <;> rfl

theorem findMsg_changeCopy (h : s.copyAt n i = some c) (f : Copy → Copy) (k : Nat) :
    (s.changeCopy n i f).findMsg k = if k = n then (s.findMsg n).map (Message.withCopy s.clock i (f c)) else s.findMsg k := by
  have hfind : (s.changeCopy n i f).findMsg k = (s.updMsg n (Message.withCopy s.clock i (f c))).findMsg k := by
    unfold State.findMsg; rw [changeCopy_store h]
  rw [hfind]
  exact State.findMsg_updMsg (f := Message.withCopy s.clock i (f c)) (fun m => rephase_number ..) k

theorem changeCopy_becomes (h : s.copyAt n i = some c) (f : Copy → Copy) : (s.changeCopy n i f).copyBecomes s n i (f c) :=
  ⟨fun k hk => by rw [findMsg_changeCopy h, if_neg hk], by rw [findMsg_changeCopy h, if_pos rfl]; rfl⟩

end

/-- Settles O22: each field of the change is one step of it. -/
theorem copyChangeCarriesItsEffects : Obligations.CopyChangeCarriesItsEffects := by
  intro s n i c f h t
  have hlists : t.lists = (s.followHolder n i c (f c)).lists := changeCopy_lists h f
  refine ⟨changeCopy_becomes h f, ?_, fun hholder => ?_, fun j hj hleft => ?_, fun j hj hstate => ?_, fun j hj hstate => ?_, ?_, ?_⟩
  · rw [show t.book = _ from changeCopy_book h f]
    refine congrArg (s.book.modify c.station) (congrArg Option.map (funext fun st => ?_))
    cases c.live <;> cases (f c).live <;> rfl
  · rw [hlists, State.followHolder_none hholder]
  · simp only [hlists, State.followHolder, hj, beq_iff_eq, if_neg hleft]
    rfl
  · have hholder : (f c).holder = some j := by simp [Copy.holder, hstate, CopyState.holder]
    simp only [hlists, State.followHolder, hj, hholder, hstate, beq_self_eq_true, if_true]
    simp only [State.updEntry, Entry.names, Bool.and_eq_true, beq_iff_eq]
  · have hholder : (f c).holder = some j := by simp [Copy.holder, hstate, CopyState.holder]
    simp [hlists, State.followHolder, hj, hholder, hstate]
  · exact changeCopy_status h f
  · exact State.changeCopy_frame s n i f

/-! ### A copy that stays live and in no list -/

theorem modify_map_id {book : List (Option Station)} {e : Nat} {f : Station → Station} (hf : ∀ st, f st = st) :
    book.modify e (Option.map f) = book := by
  have hid : Option.map f = id := funext fun o => by cases o <;> simp [hf]
  rw [hid]
  exact List.modify_id e book

/-- A change that keeps a copy live, in no list and out of FAILED touches the store alone. -/
theorem changeCopy_store_alone {s : State} {n i : Nat} {c : Copy} (h : s.copyAt n i = some c) {f : Copy → Copy}
    (hlive : (f c).live = c.live) (hholder : c.holder = none) (hstate : (f c).state ≠ some .failed ∨ c.state = some .failed) :
    s.changeCopy n i f = { s with store := (s.changeCopy n i f).store } := by
  have hbook : (s.changeCopy n i f).book = s.book := by
    rw [changeCopy_book h, hlive]
    exact modify_map_id fun st => by cases c.live <;> rfl
  have hlists : (s.changeCopy n i f).lists = s.lists := by rw [changeCopy_lists h, State.followHolder_none hholder]
  have hstatus : (s.changeCopy n i f).status = s.status := by
    rw [changeCopy_status h, if_neg]
    rintro ⟨hf, hc⟩
    exact hstate.elim (absurd hf) hc
  conv_lhs => rw [State.changeCopy_frame, hbook, hlists, hstatus]

/-! ### The timers of grades and holds -/

/-- A grade is due to fall as R58 says. -/
theorem decayDue_iff (now period : Nat) (g : Grade) :
    decayDue now period g = true ↔ 0 < g.value ∧ 0 < period ∧ min (g.touched + period * 60) 4294967295 ≤ now := by
  have hmax : Config.clockMax = 4294967295 := rfl
  simp only [decayDue, later, hmax, Bool.and_eq_true, bne_iff_ne, decide_eq_true_eq, Nat.pos_iff_ne_zero, and_assoc]

theorem isChannel_iff {s : State} {p : Port} : s.isChannel p = true ↔ s.roles.get p = .channel := by simp [State.isChannel]

/-- An entry in use changed in place is that entry written. -/
theorem modify_eq_set {book : List (Option Station)} {e : Nat} {st : Station} (h : book[e]? = some (some st)) (f : Station → Station) :
    book.modify e (Option.map f) = book.set e (some (f st)) := by
  rw [List.modify_eq_set_getElem?, h]
  rfl

theorem exec_event {s : State} {i : Instr} {f : State → State} (h : exec i s = event s f) (hs : s.inService = true) :
    exec i s = .next (f s).finish := by
  rw [h]; exact if_pos hs

/-- Settles O31. -/
theorem decayAndHoldEndActWhenDue : Obligations.DecayAndHoldEndActWhenDue := by
  intro s hs
  refine ⟨?_, fun n i c hc => ?_⟩
  · intro e p st hst g due
    have hexec : exec (.decay e p) s = .next (s.decayGrade e p).finish := exec_event (f := fun t => t.decayGrade e p) rfl hs
    have hdue : (s.isChannel p && decayDue s.clock s.dispatch.decay g) = true ↔ due := by
      rw [Bool.and_eq_true, decayDue_iff, isChannel_iff]
    refine ⟨fun h => ⟨_, hexec, ?_⟩, fun h => ⟨_, hexec, ?_⟩⟩
    · have hdecay : s.decayGrade e p = s.updStation e fun x => { x with grades := x.grades.set p (decayed s.clock g) } := by
        simp only [State.decayGrade, hst]; exact if_pos (hdue.mpr h)
      have hbook : (s.decayGrade e p).book = s.book.set e (some { st with grades := st.grades.set p ⟨g.value - 1, s.clock⟩ }) := by
        rw [hdecay]
        exact modify_eq_set (station_eq_some_iff.mp hst) _
      rw [hdecay] at hbook ⊢
      exact ⟨State.finish_follows rfl, (State.finish_behind _).trans (congrArg (fun b => { s with book := b }.behind) hbook)⟩
    · have hdecay : s.decayGrade e p = s := by
        simp only [State.decayGrade, hst]; exact if_neg (mt hdue.mp h)
      rw [hdecay]
      exact ⟨State.finish_follows rfl, State.finish_behind _⟩
  · have hexec : exec (.holdEnd n i) s = .next (s.endHold n i).finish := exec_event (f := fun t => t.endHold n i) rfl hs
    refine ⟨fun p ends hheld hends => ⟨_, hexec, ?_⟩, fun hlater => ⟨_, hexec, ?_⟩⟩
    · have hend : s.endHold n i = s.changeCopy n i fun c => c.become .waiting := by
        simp only [State.endHold, hc, Option.bind_some, hheld, if_pos hends]
      have halone : s.changeCopy n i (fun c => c.become .waiting) = _ :=
        changeCopy_store_alone hc (by simp [Copy.live, Copy.become, hheld, CopyState.live]) (by simp [Copy.holder, hheld, CopyState.holder])
          (.inl (by simp [Copy.become]))
      have hbecomes : (s.changeCopy n i fun c => c.become .waiting).finish.copyBecomes s n i { c with state := some .waiting } := by
        rw [State.finish_eq]
        exact changeCopy_becomes hc _
      rw [hend]
      refine ⟨State.finish_follows ?_, hbecomes, ?_⟩
      · rw [halone]
      · rw [State.finish_behind, State.finish_store]
        exact congrArg State.behind halone
    · have hend : s.endHold n i = s := by
        unfold State.endHold
        split
        next p ends hheld =>
          rw [hc, Option.bind_some] at hheld
          exact if_neg (not_le.mpr (hlater p ends hheld))
        next => rfl
      rw [hend]
      exact ⟨State.finish_follows rfl, State.finish_behind _⟩

end Sys2Proof.Machine
end

section
/-! PROOF. The console requests that take settings, and the requests of the Event Unit (R18, R46, R93, R117, R141, R171 to R176). -/
namespace Sys2Proof.Machine

/-- What stands behind the lines agrees wherever two states agree there. -/
theorem of_behind {α : Type} (g : State → α) {s t : State} (h : t.behind = s.behind) : g t.behind = g s.behind := congrArg g h

/-! ### Settings -/

theorem byte_lt (b : Byte) : b.toNat < 256 := b.isLt

/-- The penalty takes every value of its byte. -/
theorem rankingTaken_eq (life priority welfare routine penalty fit : Byte) :
    rankingTaken life priority welfare routine penalty fit
      = ⟨⟨min 15 life.toNat, min 15 priority.toNat, min 15 welfare.toNat, min 15 routine.toNat⟩, penalty.toNat, min 100 fit.toNat⟩ := by
  have hmin : min 255 penalty.toNat = penalty.toNat := Nat.min_eq_right (by have := byte_lt penalty; omega)
  simp only [rankingTaken, hmin]

theorem storeTaken_eq (auto : Byte) (timeout : Half) :
    storeTaken auto timeout = ⟨decide (auto.toNat ≠ 0), max 10 (min 600 timeout.toNat)⟩ := by
  by_cases h : auto.toNat = 0 <;> simp [storeTaken, clamp, h]

theorem findCall_lt_of_station {book : List (Option Station)} {c : Call} {e : Nat} (h : findCall book c = some e) : e < book.length :=
  (List.findIdx?_eq_some_iff_getElem.mp h).1

/-- Settles O23. -/
theorem settingsCountersAndOwnCallAreTaken : Obligations.SettingsCountersAndOwnCallAreTaken := by
  refine ⟨fun p tag s hfree hconsole => ⟨?_, ?_⟩, fun p tag s hfree hconsole => ⟨?_, fun field hfield => ?_⟩⟩
  · intro life priority welfare routine penalty fit r
    have hr : rankingTaken life priority welfare routine penalty fit = r := rankingTaken_eq ..
    have hserve : serveSetRanking life priority welfare routine penalty fit s = ({ s with ranking := r }).answer .ok
        (be8 r.aging.life ++ be8 r.aging.priority ++ be8 r.aging.welfare ++ be8 r.aging.routine ++ be8 r.penalty ++ be8 r.fit) := by
      rw [serveSetRanking, hr]
    exact answered_of_serve (i := .setRanking p tag life priority welfare routine penalty fit) rfl hfree rfl (by rw [hconsole]; rfl) rfl
      hserve rfl
  · intro auto timeout seconds
    have hserve : serveSetStore auto timeout s = ({ s with storeSet := ⟨decide (auto.toNat ≠ 0), seconds⟩ }).answer .ok
        (be8 (if auto.toNat = 0 then 0 else 1) ++ be16 seconds) := by
      rw [serveSetStore, storeTaken_eq]
      by_cases h : auto.toNat = 0 <;> simp [beFlag, h, seconds]
    exact answered_of_serve (i := .setStore p tag auto timeout) rfl hfree rfl (by rw [hconsole]; rfl) rfl hserve rfl
  · exact answered_of_serve (i := .clearCounters p tag) rfl hfree rfl (by rw [hconsole]; rfl) rfl (u := { s with
      counters := .same ⟨0, 0, 0, 0, 0, 0, 0⟩, totals := ⟨0, 0, 0⟩ }) rfl rfl
  · intro answered
    have answer {b : List (Option Station)} {r : Result} {fields : List Byte}
        (h : serveSetOwnCall field s = State.answer { s with book := b } r fields) : answered b r fields :=
      answered_of_serve (i := .setOwnCall p tag field) (u := { s with book := b }) rfl hfree rfl (by rw [hconsole]; rfl) (by rw [hfield]; rfl) h rfl
    refine ⟨fun hnone => answer ?_, fun c hc => ⟨fun e he hpos => answer ?_, fun hfree0 => answer ?_⟩⟩
    · simp only [serveSetOwnCall, hnone]
    · obtain ⟨e, rfl⟩ : ∃ k, e = k + 1 := ⟨e - 1, by omega⟩
      simp only [serveSetOwnCall, hc, he]
    · rcases hfree0 with h | h
      · simp only [serveSetOwnCall, hc, h]; rfl
      · simp only [serveSetOwnCall, hc, h]; rfl

/-- The dispatch settings that a request gives. -/
theorem dispatchTaken_get (tiers runs : PerPort Byte) (window : Half) (decay : Byte) (k : Port) :
    (dispatchTaken tiers runs window decay).tiers.get k = (if (tiers.get k).toNat = 0 then .a else .b)
      ∧ (dispatchTaken tiers runs window decay).runs.get k = max 1 (min 8 (runs.get k).toNat) := by
  simp [dispatchTaken, tierOf, clamp]

theorem dispatchBytes_eq (d : DispatchSettings) : dispatchBytes d =
    (Port.all.flatMap fun k => be8 (match d.tiers.get k with | .a => 0 | .b => 1) ++ be8 (d.runs.get k)) ++ be16 d.window
      ++ be8 d.decay := by
  have hcode (k : Port) : tierCode (d.tiers.get k) = (match d.tiers.get k with | .a => 0 | .b => 1) := by
    cases d.tiers.get k <;> rfl
  simp only [dispatchBytes, hcode]

/-- Under a period of 0 no grade is due. -/
theorem decayAll_zero_book (s : State) : (s.decayAll 0).book = s.book := by
  simp [State.decayAll, decayDue]

/-- Settles O24. -/
theorem dispatchSettingsAreTaken : Obligations.DispatchSettingsAreTaken := by
  intro p tag tiers runs window decay s hfree hconsole d
  have hd : (dispatchTaken tiers runs window decay).decay = d := rfl
  obtain ⟨t, hexec, hbehind, hanswers⟩ := answered_of_serve (i := .setDispatch p tag tiers runs window decay)
    (u := { (if d != s.dispatch.decay then s.decayAll d else s) with dispatch := dispatchTaken tiers runs window decay })
    rfl hfree rfl (by rw [hconsole]; rfl) rfl rfl (by dsimp only; split <;> rfl)
  have hdispatch : t.dispatch = dispatchTaken tiers runs window decay := (of_behind State.dispatch hbehind :)
  have hbook : t.book = (if d != s.dispatch.decay then s.decayAll d else s).book := (of_behind State.book hbehind :)
  have hstation (e : Nat) : t.station e = (if d != s.dispatch.decay then s.decayAll d else s).station e := by
    unfold State.station; rw [hbook]
  refine ⟨t, hexec, fun k => ?_, fun k => ?_, ?_, ?_, fun hkept => ?_, fun hne hpos e st hst => ?_, fun e hnone => ?_, ?_, ?_⟩
  · rw [hdispatch]; exact (dispatchTaken_get ..).1
  · rw [hdispatch]; exact (dispatchTaken_get ..).2
  · rw [hdispatch]; rfl
  · rw [hdispatch]; rfl
  · rw [hbook]
    split
    next hne =>
      rcases hkept with h | h
      · exact absurd h (bne_iff_ne.mp hne)
      · rw [h]; exact decayAll_zero_book s
    next => rfl
  · have hu := hstation e
    rw [if_pos (bne_iff_ne.mpr hne), State.station_decayAll, hst] at hu
    refine ⟨_, hu, rfl, fun k => ?_⟩
    simp only [PerPort.get_build]
    refine if_congr ?_ rfl rfl
    have hpos' : 0 < d := Nat.pos_of_ne_zero hpos
    rw [Bool.and_eq_true, isChannel_iff, decayDue_iff]
    exact and_congr_right fun _ => and_congr_right fun _ => and_iff_right hpos'
  · rw [hstation]
    split
    · rw [State.station_decayAll, hnone]; rfl
    · exact hnone
  · rw [hbehind, hdispatch, hbook]
    split <;> rfl
  · rw [hdispatch]
    have hbytes := dispatchBytes_eq (dispatchTaken tiers runs window decay)
    rw [hbytes] at hanswers
    exact hanswers

/-! ### Events -/

theorem eventSetOf_eq_some {h : Half} (hlt : h.toNat < 4096) : eventSetOf h = some (h.setWidth 12) := if_pos hlt
theorem eventSetOf_eq_none {h : Half} (hle : 4096 ≤ h.toNat) : eventSetOf h = none := if_neg (by omega)

/-- The kinds in reporting order, each at the place of its order. -/
theorem eventKinds_getElem? (n : Nat) (k : EventKind) : eventKinds[n]? = some k ↔ n + 1 = eventOrder k := by
  constructor
  · intro h
    have hn : n < 12 := (List.getElem?_eq_some_iff.mp h).1
    revert k
    interval_cases n <;> decide
  · intro h
    have key : ∀ k, eventKinds[eventOrder k - 1]? = some k := by intro k; cases k <;> rfl
    rw [← key k, ← h]; rfl

/-- The first event is the earliest kind of the reporting order that stands in both sets (R174). -/
theorem firstEvent_eq_some_iff (s : State) (p : Port) (k : EventKind) :
    s.firstEvent p = some k ↔ hasEvent (s.status.get p &&& s.enable.get p) k = true
      ∧ ∀ j, eventOrder j < eventOrder k → hasEvent (s.status.get p &&& s.enable.get p) j = false := by
  unfold State.firstEvent
  generalize s.status.get p &&& s.enable.get p = set
  rw [List.find?_eq_some_iff_getElem]
  constructor
  · rintro ⟨hk, i, hi, hget, hbefore⟩
    have hik := (eventKinds_getElem? i k).mp (List.getElem?_eq_some_iff.mpr ⟨hi, hget⟩)
    refine ⟨hk, fun j hj => ?_⟩
    have hplace : eventKinds[eventOrder j - 1]? = some j := (eventKinds_getElem? _ _).mpr (by cases j <;> rfl)
    obtain ⟨hlt, hjget⟩ := List.getElem?_eq_some_iff.mp hplace
    have hj1 : 1 ≤ eventOrder j := by cases j <;> decide
    have := hbefore (eventOrder j - 1) (by omega)
    rw [hjget] at this
    simpa using this
  · rintro ⟨hk, hbefore⟩
    have hplace : eventKinds[eventOrder k - 1]? = some k := (eventKinds_getElem? _ _).mpr (by cases k <;> rfl)
    obtain ⟨hlt, hget⟩ := List.getElem?_eq_some_iff.mp hplace
    refine ⟨hk, _, hlt, hget, fun j hj => ?_⟩
    have hjk := (eventKinds_getElem? j _).mp (List.getElem?_eq_getElem (hj.trans hlt))
    have := hbefore eventKinds[j] (by omega)
    simpa using this

theorem firstEvent_eq_none_iff (s : State) (p : Port) : s.firstEvent p = none ↔ s.status.get p &&& s.enable.get p = 0 := by
  unfold State.firstEvent
  generalize s.status.get p &&& s.enable.get p = set
  rw [List.find?_eq_none]
  constructor
  · intro h
    refine BitVec.eq_of_getLsbD_eq fun i hi => ?_
    obtain ⟨k, hk⟩ : ∃ k, eventKinds[i]? = some k := ⟨_, List.getElem?_eq_getElem hi⟩
    have hno := h k (List.mem_of_getElem? hk)
    have hi1 : eventOrder k - 1 = i := by have := (eventKinds_getElem? i k).mp hk; omega
    simpa [hasEvent, hi1] using hno
  · rintro h k -
    simp [h, hasEvent]

/-- The codes of functions are taken with their byte. -/
theorem annFnCode_of_annFnOf {b : Byte} {f : AnnFn} (h : annFnOf b = some f) : be8 (annFnCode f) = [b] := by
  have key : ∀ b : Byte, ∀ f, annFnOf b = some f → be8 (annFnCode f) = [b] := by decide
  exact key b f h

theorem annFnOf_eq_none {b : Byte} (h : 6 < b.toNat) : annFnOf b = none := by
  rw [annFnOf_eq]; exact List.getElem?_eq_none_iff.mpr h

/-- Settles O26. -/
theorem eventRequestsActAndTheFirstEventIsNamed : Obligations.EventRequestsActAndTheFirstEventIsNamed := by
  refine ⟨fun p tag s hfree => ?_, fun s p => ?_⟩
  · have hlow {kind : Byte} (hk : kind.toNat < 0x20) := mayUse_of_hears (hears_of_freeAt hfree) hk
    refine ⟨fun set hset => ⟨?_, ?_⟩, fun set hset => ⟨?_, ?_⟩, fun hconsole a b c d => ⟨fun w x y z hw hx hy hz => ?_, fun hbad => ?_⟩⟩
    · let u : State := { s with status := s.status.set p (s.status.get p &&& ~~~(set.setWidth 12)) }
      have hserve : serveClearEvents p set s = u.answer .ok (beEvents (u.status.get p) ++ be8 (eventCode (u.firstEvent p))) := by simp only [serveClearEvents, eventSetOf_eq_some hset, u]
      obtain ⟨t, hexec, hbehind, hanswers⟩ :=
        answered_of_serve (i := .clearEvents p tag set) rfl hfree rfl (hlow (kind := 0x02) (by decide)) rfl hserve rfl
      have hstatus : t.status = _ := (of_behind State.status hbehind :)
      have hfirst : t.firstEvent p = _ := (of_behind (fun x => x.firstEvent p) hbehind :)
      exact ⟨t, hexec, hbehind, by rw [hstatus, hfirst]; exact hanswers⟩
    · let u : State := { s with enable := s.enable.set p (set.setWidth 12 &&& routedSet (s.roles.get p)) }
      have hserve : serveSetEventMask p set s = u.answer .ok
          (beEvents (u.enable.get p) ++ beEvents (u.status.get p) ++ be8 (eventCode (u.firstEvent p))) := by simp only [serveSetEventMask, eventSetOf_eq_some hset, u]
      obtain ⟨t, hexec, hbehind, hanswers⟩ :=
        answered_of_serve (i := .setEventMask p tag set) rfl hfree rfl (hlow (kind := 0x03) (by decide)) rfl hserve rfl
      have henable : t.enable = _ := (of_behind State.enable hbehind :)
      have hstatus : t.status = _ := (of_behind State.status hbehind :)
      have hfirst : t.firstEvent p = _ := (of_behind (fun x => x.firstEvent p) hbehind :)
      exact ⟨t, hexec, hbehind, by rw [henable, hstatus, hfirst]; exact hanswers⟩
    · exact answered_of_serve (i := .clearEvents p tag set) rfl hfree rfl (hlow (kind := 0x02) (by decide)) rfl
        (show serveClearEvents p set s = s.answer .badField [] by simp only [serveClearEvents, eventSetOf_eq_none hset]) rfl
    · exact answered_of_serve (i := .setEventMask p tag set) rfl hfree rfl (hlow (kind := 0x03) (by decide)) rfl
        (show serveSetEventMask p set s = s.answer .badField [] by simp only [serveSetEventMask, eventSetOf_eq_none hset]) rfl
    · have hserve : serveSetAnnunciator a b c d s = ({ s with annFns := ⟨w, x, y, z⟩ }).answer .ok
          ([a, b, c, d] ++ [w, x, y, z].flatMap fun f => beFlag (s.annHolds f)) := by
        simp only [serveSetAnnunciator, hw, hx, hy, hz, Four.toList, List.flatMap_cons, List.flatMap_nil, List.append_nil,
          annFnCode_of_annFnOf hw, annFnCode_of_annFnOf hx, annFnCode_of_annFnOf hy, annFnCode_of_annFnOf hz]
        rfl
      obtain ⟨t, hexec, hbehind, hanswers⟩ :=
        answered_of_serve (i := .setAnnunciator p tag a b c d) rfl hfree rfl (by rw [hconsole]; rfl) rfl hserve rfl
      have hfns : t.annFns = _ := (of_behind State.annFns hbehind :)
      have hholds : t.annHolds = _ := (of_behind State.annHolds hbehind :)
      have hservice : t.inService = _ := (of_behind State.inService hbehind :)
      have hout : t.annOut = ⟨s.annHolds w, s.annHolds x, s.annHolds y, s.annHolds z⟩ := by
        have hs : s.inService = true := inService_of_hears (hears_of_freeAt hfree)
        rw [hanswers.2.2.2, hfns, hholds, hservice]
        show (⟨s.inService && s.annHolds w, s.inService && s.annHolds x, s.inService && s.annHolds y, s.inService && s.annHolds z⟩ :
          Four Bool) = _
        rw [hs]
        rfl
      refine ⟨t, hexec, hbehind, ?_⟩
      have hlevels : t.annOut.toList.map (fun level => if level then (1 : Byte) else 0)
          = [w, x, y, z].flatMap fun f => beFlag (s.annHolds f) := by
        have hbit (b : Bool) : beFlag b = [if b then (1 : Byte) else 0] := by cases b <;> rfl
        simp only [hout, Four.toList, hbit, List.flatMap_cons, List.flatMap_nil]
        rfl
      rw [hlevels]
      exact hanswers
    · have hserve : serveSetAnnunciator a b c d s = s.answer .badField [] := by
        unfold serveSetAnnunciator
        split
        next ha hb hc hd =>
          rcases hbad with h | h | h | h
          · rw [annFnOf_eq_none h] at ha; cases ha
          · rw [annFnOf_eq_none h] at hb; cases hb
          · rw [annFnOf_eq_none h] at hc; cases hc
          · rw [annFnOf_eq_none h] at hd; cases hd
        next => rfl
      exact answered_of_serve (i := .setAnnunciator p tag a b c d) rfl hfree rfl (by rw [hconsole]; rfl) rfl hserve rfl
  · intro pending
    refine ⟨fun k => firstEvent_eq_some_iff s p k, firstEvent_eq_none_iff s p, fun hs hoff => ?_⟩
    rw [Ne, firstEvent_eq_none_iff]
    simp [State.attentionOf, hs, hoff]

end Sys2Proof.Machine
end

section
/-! PROOF. The Station Book: the entry provided for an unknown call, HEARD, SET STATION and REMOVE STATION (R49 to R55). -/
namespace Sys2Proof.Machine

/-! ### The entry provided (R49) -/

section
variable {book : List (Option Station)} {isNamed : Nat → Bool} {busy : List Nat}

/-- The entries that may be recycled, each with its created stamp, in rising order. -/
def recyclable (book : List (Option Station)) (isNamed : Nat → Bool) (busy : List Nat) : List (Nat × Nat) :=
  (List.range Config.entries).filterMap fun e =>
    (book[e]?).join.bind fun st => if st.kind == .auto && !isNamed e && !busy.contains e then some (e, st.created) else none

/-- An entry may be recycled while it is an AUTO entry, not named and not in use by an earlier addressee. -/
def Recyclable (book : List (Option Station)) (isNamed : Nat → Bool) (busy : List Nat) (e : Nat) (st : Station) : Prop :=
  e ≤ 63 ∧ book[e]? = some (some st) ∧ st.kind = .auto ∧ isNamed e = false ∧ e ∉ busy

/-- An entry of 1 to 63 is free. -/
def FreeEntry (book : List (Option Station)) (e : Nat) : Prop := 1 ≤ e ∧ e ≤ 63 ∧ book[e]? = some none

theorem mem_recyclable {x : Nat × Nat} :
    x ∈ recyclable book isNamed busy ↔ ∃ st, Recyclable book isNamed busy x.1 st ∧ st.created = x.2 := by
  have hentries : Config.entries = 64 := rfl
  obtain ⟨e, k⟩ := x
  simp only [recyclable, List.mem_filterMap, List.mem_range, Option.bind_eq_some_iff, Option.join_eq_some_iff,
    Option.ite_none_right_eq_some, Option.some.injEq, Prod.mk.injEq, Bool.and_eq_true, beq_iff_eq, Bool.not_eq_true', Recyclable,
    List.contains_eq_mem, decide_eq_false_iff_not]
  constructor
  · rintro ⟨d, hd, st, hst, ⟨⟨hkind, hnamed⟩, hbusy⟩, rfl, rfl⟩
    exact ⟨st, ⟨by omega, hst, hkind, hnamed, hbusy⟩, rfl⟩
  · rintro ⟨st, ⟨he, hst, hkind, hnamed, hbusy⟩, rfl⟩
    exact ⟨e, by omega, st, hst, ⟨⟨hkind, hnamed⟩, hbusy⟩, rfl, rfl⟩

theorem recyclable_sorted : (recyclable book isNamed busy).Pairwise fun x y => x.1 < y.1 := by
  refine List.pairwise_filterMap.mpr ((List.pairwise_lt_range).imp fun {a b} hab x hx y hy => ?_)
  simp only [Option.bind_eq_some_iff, Option.ite_none_right_eq_some, Option.some.injEq] at hx hy
  obtain ⟨-, -, -, rfl⟩ := hx
  obtain ⟨-, -, -, rfl⟩ := hy
  exact hab

/-- The order in which entries are recycled: the older created stamp, then the lower index. -/
def RecycledFirst (x y : Nat × Nat) : Prop := x.2 < y.2 ∨ x.2 = y.2 ∧ x.1 ≤ y.1

theorem foldl_olderEntry {l : List (Nat × Nat)} {b : Nat × Nat} (hsorted : (b :: l).Pairwise fun x y => x.1 < y.1) :
    ∃ x, l.foldl olderEntry (some b) = some x ∧ x ∈ b :: l ∧ ∀ y ∈ b :: l, RecycledFirst x y := by
  induction l generalizing b with
  | nil => exact ⟨b, rfl, by simp, fun y hy => by rw [List.mem_singleton.mp hy]; exact .inr ⟨rfl, le_refl _⟩⟩
  | cons c l ih =>
    obtain ⟨hb, hcl⟩ := List.pairwise_cons.mp hsorted
    have hbc : b.1 < c.1 := hb c (by simp)
    rw [List.foldl_cons, olderEntry]
    split
    next hlt =>
      obtain ⟨x, hx, hmem, hleast⟩ := ih hcl
      refine ⟨x, hx, List.mem_cons_of_mem b hmem, fun y hy => ?_⟩
      rcases List.mem_cons.mp hy with rfl | hy
      · rcases hleast c (by simp) with h | ⟨h, -⟩
        · exact .inl (h.trans hlt)
        · exact .inl (h ▸ hlt)
      · exact hleast y hy
    next hge =>
      obtain ⟨x, hx, hmem, hleast⟩ := ih (b := b)
        (List.pairwise_cons.mpr ⟨fun y hy => hb y (List.mem_cons_of_mem c hy), (List.pairwise_cons.mp hcl).2⟩)
      refine ⟨x, hx, ?_, fun y hy => ?_⟩
      · rcases List.mem_cons.mp hmem with rfl | h
        · simp
        · exact List.mem_cons_of_mem b (List.mem_cons_of_mem c h)
      · rcases List.mem_cons.mp hy with rfl | hy
        · exact hleast y (by simp)
        · rcases List.mem_cons.mp hy with rfl | hy
          · rcases hleast b (by simp) with h | ⟨h, h1⟩
            · exact .inl (lt_of_lt_of_le h (not_lt.mp hge))
            · rcases (not_lt.mp hge).lt_or_eq with h2 | h2
              · exact .inl (h ▸ h2)
              · exact .inr ⟨h.trans h2, h1.trans hbc.le⟩
          · exact hleast y (List.mem_cons_of_mem b hy)

/-- The entry recycled is the first of those that may be, and there is one unless none may be. -/
theorem foldl_olderEntry_none (l : List (Nat × Nat)) (hsorted : l.Pairwise fun x y => x.1 < y.1) :
    (l = [] ∧ l.foldl olderEntry none = none)
      ∨ ∃ x, l.foldl olderEntry none = some x ∧ x ∈ l ∧ ∀ y ∈ l, RecycledFirst x y := by
  cases l with
  | nil => exact .inl ⟨rfl, rfl⟩
  | cons b l => exact .inr (foldl_olderEntry hsorted)

theorem provideEntry_eq : provideEntry book isNamed busy =
    match (List.range Config.entries).find? fun e => e != 0 && book[e]? == some none with
    | some e => some (e, false)
    | none => ((recyclable book isNamed busy).foldl olderEntry none).map fun x => (x.1, true) := by
  have hcands : recyclable book isNamed busy = (List.range Config.entries).filterMap fun e =>
      match (book[e]?).join with
      | some st => if st.kind == .auto && !isNamed e && !busy.contains e then some (e, st.created) else none
      | none => none := by
    unfold recyclable
    congr 1
    funext e
    cases (book[e]?).join <;> rfl
  rw [hcands]
  rfl

theorem freeEntry_iff {e : Nat} : FreeEntry book e ↔ e < 64 ∧ (e != 0 && book[e]? == some none) = true := by
  simp only [FreeEntry, Bool.and_eq_true, bne_iff_ne, beq_iff_eq]
  constructor
  · rintro ⟨h1, h2, h3⟩; exact ⟨by omega, by omega, h3⟩
  · rintro ⟨h1, h2, h3⟩; exact ⟨by omega, by omega, h3⟩

/-- The entry provided: the lowest free one, else the first of those that may be recycled, else none. -/
theorem provideEntry_cases :
    (∃ e, provideEntry book isNamed busy = some (e, false) ∧ FreeEntry book e ∧ ∀ d, FreeEntry book d → e ≤ d)
    ∨ (∀ d, ¬ FreeEntry book d) ∧ ((∃ e st, provideEntry book isNamed busy = some (e, true) ∧ Recyclable book isNamed busy e st
        ∧ ∀ d u, Recyclable book isNamed busy d u → RecycledFirst (e, st.created) (d, u.created))
      ∨ provideEntry book isNamed busy = none ∧ ∀ d u, ¬ Recyclable book isNamed busy d u) := by
  rw [provideEntry_eq]
  have hentries : Config.entries = 64 := rfl
  cases hfind : (List.range Config.entries).find? fun e => e != 0 && book[e]? == some none with
  | some e =>
    rw [List.find?_range_eq_some] at hfind
    obtain ⟨hfree, hlt, hbefore⟩ := hfind
    refine .inl ⟨e, rfl, freeEntry_iff.mpr ⟨List.mem_range.mp hlt, hfree⟩, fun d hd => ?_⟩
    by_contra hlt'
    have := hbefore d (by omega)
    rw [(freeEntry_iff.mp hd).2] at this
    cases this
  | none =>
    have hnone (d : Nat) : ¬ FreeEntry book d := fun hd => by
      obtain ⟨hlt, hfree⟩ := freeEntry_iff.mp hd
      exact List.find?_eq_none.mp hfind d (List.mem_range.mpr hlt) hfree
    refine .inr ⟨hnone, ?_⟩
    rcases foldl_olderEntry_none (recyclable book isNamed busy) recyclable_sorted with ⟨hempty, hfold⟩ | ⟨x, hfold, hmem, hleast⟩
    · refine .inr ⟨by simp only [hfold, Option.map_none], fun d u hu => ?_⟩
      have : (d, u.created) ∈ recyclable book isNamed busy := mem_recyclable.mpr ⟨u, hu, rfl⟩
      rw [hempty] at this
      cases this
    · obtain ⟨st, hst, hcreated⟩ := mem_recyclable.mp hmem
      refine .inl ⟨x.1, st, by simp only [hfold, Option.map_some], hst, fun d u hu => ?_⟩
      rw [hcreated]
      exact hleast (d, u.created) (mem_recyclable.mpr ⟨u, hu, rfl⟩)

end

/-- Settles O27. -/
theorem entryProvidedIsFreeOrTheOldest : Obligations.EntryProvidedIsFreeOrTheOldest := by
  intro book isNamed busy free old
  have hcases := provideEntry_cases (book := book) (isNamed := isNamed) (busy := busy)
  refine ⟨fun e => ⟨fun h => ?_, fun ⟨hfree, hleast⟩ => ?_⟩, fun e => ⟨fun h => ?_, fun ⟨hnone, st, hold, hleast⟩ => ?_⟩,
    fun h => ?_, fun ⟨hnone, hold⟩ => ?_⟩
  · rcases hcases with ⟨d, hd, hfree, hleast⟩ | ⟨-, ⟨d, st, hd, -⟩ | ⟨hd, -⟩⟩
    · rw [h] at hd; cases hd; exact ⟨hfree, hleast⟩
    · rw [h] at hd; cases hd
    · rw [h] at hd; cases hd
  · rcases hcases with ⟨d, hd, hfree', hleast'⟩ | ⟨hnone, -⟩
    · rw [hd, le_antisymm (hleast' e hfree) (hleast d hfree')]
    · exact absurd hfree (hnone e)
  · rcases hcases with ⟨d, hd, -⟩ | ⟨hnone, ⟨d, st, hd, hold, hleast⟩ | ⟨hd, -⟩⟩
    · rw [h] at hd; cases hd
    · rw [h] at hd; cases hd; exact ⟨hnone, st, hold, fun d u hu => hleast d u hu⟩
    · rw [h] at hd; cases hd
  · rcases hcases with ⟨d, -, hfree, -⟩ | ⟨-, ⟨d, st', hd, hold', hleast'⟩ | ⟨-, hno⟩⟩
    · exact absurd hfree (hnone d)
    · have hde := hleast' e st hold
      have hed := hleast d st' hold'
      simp only [RecycledFirst] at hde
      rw [hd, show d = e by omega]
    · exact absurd hold (hno e st)
  · rcases hcases with ⟨d, hd, -⟩ | ⟨hnone, ⟨d, st, hd, -⟩ | ⟨-, hno⟩⟩
    · rw [h] at hd; cases hd
    · rw [h] at hd; cases hd
    · exact ⟨hnone, hno⟩
  · rcases hcases with ⟨d, -, hfree, -⟩ | ⟨-, ⟨d, st, -, hst, -⟩ | ⟨hd, -⟩⟩
    · exact absurd hfree (hnone d)
    · exact absurd hst (hold d st)
    · exact hd

/-! ### HEARD, SET STATION and REMOVE STATION -/

theorem entryFor_found {s : State} {c : Call} {e : Nat} (h : findCall s.book c = some e) (k : StationKind) :
    s.entryFor c k = some (s, e, false) := by
  simp only [State.entryFor, h]

theorem entryFor_provided {s : State} {c : Call} {e : Nat} {recycled : Bool} (h : findCall s.book c = none)
    (hprovide : provideEntry s.book s.named [] = some (e, recycled)) (k : StationKind) :
    s.entryFor c k = some (s.writeEntry e recycled (newStation c k s.clock), e, true) := by
  simp only [State.entryFor, h, hprovide]

theorem entryFor_none {s : State} {c : Call} (h : findCall s.book c = none) (hprovide : provideEntry s.book s.named [] = none)
    (k : StationKind) : s.entryFor c k = none := by
  simp only [State.entryFor, h, hprovide]

/-- A streak that names an entry that is freed or recycled ends. -/
theorem endStreak_eq (s : State) (e : Nat) : s.endStreak e = { s with streak := s.streak.bind fun k => if k.station = e then none else some k } := by
  cases hk : s.streak with
  | none => simp [State.endStreak, hk]
  | some k => simp [State.endStreak, hk]

/-- An entry written, whole. -/
theorem writeEntry_eq (s : State) (e : Nat) (recycled : Bool) (st : Station) : s.writeEntry e recycled st = { s with
    book := s.book.set e (some st)
    streak := s.streak.bind fun k => if recycled = true ∧ k.station = e then none else some k } := by
  cases recycled with
  | true => simp only [State.writeEntry, if_true, endStreak_eq, true_and]
  | false => simp [State.writeEntry]

/-- An entry written and then changed in place is written as changed. -/
theorem updStation_writeEntry {s : State} {e : Nat} (he : e < s.book.length) (recycled : Bool) (st : Station) (f : Station → Station) :
    (s.writeEntry e recycled st).updStation e f = s.writeEntry e recycled (f st) := by
  simp only [writeEntry_eq, State.updStation]
  rw [modify_eq_set (st := st) (by simp [he]) f, List.set_set]

/-- Settles O28. -/
theorem heardWritesTheGradeAtItsPort : Obligations.HeardWritesTheGradeAtItsPort := by
  intro p tag grade field s hfree hchannel hfield answered g
  have answer {u : State} {r : Result} {fields : List Byte} (h : serveHeard p field grade s = u.answer r fields)
      (hunits : u.units = s.units) : answered u r fields :=
    answered_of_serve (i := .heard p tag field grade) rfl hfree rfl (by rw [hchannel]; rfl) (by simp [hfield]; rfl) h hunits
  refine ⟨fun hnone => answer ?_ rfl, fun c hc => ⟨fun hown => answer ?_ rfl, fun hown e he => answer ?_ rfl,
    fun hown hno e recycled hprovide he => answer ?_ ?_, fun hown hno hprovide => answer ?_ rfl⟩⟩
  · simp only [serveHeard, hnone]
  · simp only [serveHeard, hc, hown, beq_self_eq_true, if_true]
  · simp only [serveHeard, hc, beq_iff_eq, if_neg hown, entryFor_found he]
    rfl
  · simp only [serveHeard, hc, beq_iff_eq, if_neg hown, entryFor_provided hno hprovide, updStation_writeEntry he]
    rw [writeEntry_eq]
    rfl
  · rfl
  · simp only [serveHeard, hc, beq_iff_eq, if_neg hown, entryFor_none hno hprovide]

theorem maskBelow_iff {b : Byte} : maskBelow b 6 = true ↔ b.toNat < 64 := by simp [maskBelow]

/-- A station as SET STATION leaves it. -/
theorem setEntry_eq (s : State) (ports : Byte) (grades : PerPort Byte) (clear : Byte) (st : Station) :
    s.setEntry ports grades clear st = { st with
      kind := .set
      grades := .build fun k => if ports.getLsbD (portNumber k) = true ∧ s.roles.get k = .channel
        then ⟨min 3 (grades.get k).toNat, s.clock⟩ else st.grades.get k
      affinity := if clear.toNat = 0 then st.affinity else none } := by
  simp only [State.setEntry, State.writeGrades, hasBit, Bool.and_eq_true, isChannel_iff]

/-- The fields of a SET STATION reply. -/
def setStationFields (e : Nat) (former : Option StationKind) (st : Station) : List Byte :=
  be8 e ++ be8 (kindCode former) ++ (Port.all.flatMap fun k => be8 (st.grades.get k).value) ++ be8 (if st.affinity.isSome then 1 else 0)

theorem serveSetStation_entry {s t : State} {c : Call} {e : Nat} {made : Bool} {field : List Byte} {ports clear : Byte}
    {grades : PerPort Byte} {st : Station} (hc : callOf field = some c) (hports : ports.toNat < 64) (hown : c ≠ s.ownCall)
    (hentry : s.entryFor c .set = some (t, e, made)) (hst : (t.updStation e (s.setEntry ports grades clear)).station e = some st) :
    serveSetStation field ports grades clear s = (t.updStation e (s.setEntry ports grades clear)).answer .ok
      (setStationFields e ((s.station e).map Station.kind) st) := by
  have hflag : beFlag st.affinity.isSome = be8 (if st.affinity.isSome then 1 else 0) := by cases st.affinity <;> rfl
  simp only [serveSetStation, hc, maskBelow_iff.mpr hports, Bool.not_true, Bool.false_eq_true, if_false, beq_iff_eq, if_neg hown, hentry,
    hst, hflag]
  rfl

/-- Settles O29. -/
theorem setStationClaimsTheEntry : Obligations.SetStationClaimsTheEntry := by
  intro p tag ports clear grades field s hfree hconsole hfield answered written echo
  have answer {u : State} {r : Result} {fields : List Byte} (h : serveSetStation field ports grades clear s = u.answer r fields)
      (hunits : u.units = s.units) : answered u r fields :=
    answered_of_serve (i := .setStation p tag field ports grades clear) rfl hfree rfl (by rw [hconsole]; rfl) (by simp [hfield]; rfl) h
      hunits
  have hwritten (st : Station) : s.setEntry ports grades clear st = written st := setEntry_eq ..
  refine ⟨fun hbad => answer ?_ rfl, fun c hc => ⟨fun hports hown => answer ?_ rfl, fun hports hown e st he hst => ?_,
    fun hports hown hno e recycled hprovide he => ?_, fun hports hown hno hprovide => answer ?_ rfl⟩⟩
  · unfold serveSetStation
    split
    · rfl
    next c hc =>
      rcases hbad with h | h
      · rw [if_pos (by rw [Bool.not_eq_true', Bool.eq_false_iff, Ne, maskBelow_iff]; omega)]
      · rw [h] at hc; cases hc
  · simp only [serveSetStation, hc, maskBelow_iff.mpr hports, Bool.not_true, Bool.false_eq_true, if_false, hown, beq_self_eq_true, if_true]
  · have hbook := modify_eq_set (station_eq_some_iff.mp hst) (s.setEntry ports grades clear)
    have hserve := serveSetStation_entry (ports := ports) (clear := clear) (grades := grades) (st := written st) hc hports hown
      (entryFor_found he .set) (by rw [State.station_updStation, if_pos rfl, hst, Option.map_some, hwritten])
    rw [hst, State.updStation, hbook, hwritten] at hserve
    exact answer hserve rfl
  · intro st
    have hupdate := updStation_writeEntry (s := s) he recycled (newStation c .set s.clock) (s.setEntry ports grades clear)
    rw [hwritten] at hupdate
    have hserve := serveSetStation_entry (ports := ports) (clear := clear) (grades := grades) (st := st) hc hports hown
      (entryFor_provided hno hprovide .set) (by
        rw [hupdate, writeEntry_eq]
        exact station_eq_some_iff.mpr (by simp [he]; rfl))
    rw [hupdate, writeEntry_eq] at hserve
    exact answer hserve rfl
  · simp only [serveSetStation, hc, maskBelow_iff.mpr hports, Bool.not_true, Bool.false_eq_true, if_false, beq_iff_eq, if_neg hown,
      entryFor_none hno hprovide]

/-- Settles O30. -/
theorem removeStationFreesAnUnnamedEntry : Obligations.RemoveStationFreesAnUnnamedEntry := by
  intro p tag field s hfree hconsole hfield answered
  have answer {u : State} {r : Result} {fields : List Byte} (h : serveRemoveStation field s = u.answer r fields)
      (hunits : u.units = s.units) : answered u r fields :=
    answered_of_serve (i := .removeStation p tag field) rfl hfree rfl (by rw [hconsole]; rfl) (by rw [hfield]; rfl) h hunits
  refine ⟨fun hnone => answer ?_ rfl, fun c hc => ⟨fun hno => answer ?_ rfl, fun h0 => answer ?_ rfl,
    fun e st he hst hpos => ⟨fun hnamed => answer ?_ rfl, fun hunnamed => answer ?_ rfl⟩⟩⟩
  · simp only [serveRemoveStation, hnone]
  · simp only [serveRemoveStation, hc, hno]
  · simp only [serveRemoveStation, hc, h0, beq_self_eq_true, if_true]
  · simp only [serveRemoveStation, hc, he, beq_iff_eq, if_neg (show e ≠ 0 by omega), hnamed, if_true, hst, Option.map_some, Option.getD_some]
  · simp only [serveRemoveStation, hc, he, beq_iff_eq, if_neg (show e ≠ 0 by omega), hunnamed, Bool.false_eq_true, if_false, endStreak_eq]

end Sys2Proof.Machine
end

section
/-! PROOF. Channels: CHANNEL OPEN, CHANNEL CLOSE, RESTORE CHANNEL, the admin modes and the standing asks (R115, R122 to R127, R139). -/
namespace Sys2Proof.Machine

/-! ### CHANNEL OPEN, CHANNEL CLOSE and RESTORE CHANNEL -/

theorem serveChannelClose_active {s : State} {p : Port}
    (h : (s.channels.get p).state = .ready ∨ ∃ n f, (s.channels.get p).state = .asking n f) :
    serveChannelClose p s = if (s.lists.get p).isEmpty then ((s.setChan p .closed).releaseHolds p).answer .ok
      else s.answer .listNotEmpty (be8 (s.lists.get p).length) := by
  rcases h with h | ⟨n, f, h⟩ <;> simp only [serveChannelClose, h]

/-- Settles O40. -/
theorem channelsOpenCloseAndAreRestored : Obligations.ChannelsOpenCloseAndAreRestored := by
  intro p tag s hfree active
  refine ⟨?_, ?_⟩
  · intro hchannel c opens closes
    have open_ {u : State} {r : Result} {fields : List Byte} (h : serveChannelOpen p s = u.answer r fields) (hunits : u.units = s.units) :
        opens u r fields := answered_of_serve (i := .channelOpen p tag) rfl hfree rfl (by rw [hchannel]; rfl) rfl h hunits
    have close {u : State} {r : Result} {fields : List Byte} (h : serveChannelClose p s = u.answer r fields) (hunits : u.units = s.units) :
        closes u r fields := answered_of_serve (i := .channelClose p tag) rfl hfree rfl (by rw [hchannel]; rfl) rfl h hunits
    refine ⟨fun h => open_ ?_ rfl, fun h => open_ ?_ rfl, fun h => open_ ?_ rfl, fun h => close ?_ rfl,
      fun h => ⟨fun hlist => close ?_ rfl, fun hlist => close ?_ rfl⟩⟩
    · simp only [serveChannelOpen, show (s.channels.get p).state = _ from h]; rfl
    · simp only [serveChannelOpen, show (s.channels.get p).state = _ from h]
    · rcases h with h | ⟨n, f, h⟩
      · simp only [serveChannelOpen, show (s.channels.get p).state = _ from h]
      · simp only [serveChannelOpen, show (s.channels.get p).state = _ from h]
    · rcases h with h | h
      · simp only [serveChannelClose, show (s.channels.get p).state = _ from h]
      · simp only [serveChannelClose, show (s.channels.get p).state = _ from h]
    · rw [serveChannelClose_active h, if_neg (by simpa using hlist)]
    · rw [serveChannelClose_active h, if_pos (by simpa using hlist)]; rfl
  · intro hconsole port restores
    have restore {u : State} {r : Result} (h : serveRestoreChannel port s = u.answer r []) (hunits : u.units = s.units) : restores u r :=
      answered_of_serve (i := .restoreChannel p tag port) rfl hfree rfl (by rw [hconsole]; rfl) rfl h hunits
    refine ⟨fun hnone => restore ?_ rfl, fun k hk => ⟨fun hrole => restore ?_ rfl, fun hrole hstate => restore ?_ rfl,
      fun hrole hstate => restore ?_ rfl⟩⟩
    · simp only [serveRestoreChannel, hnone]
    · simp [serveRestoreChannel, hk, State.isChannel, hrole]
    · simp [serveRestoreChannel, hk, State.isChannel, hrole, hstate]
    · simp [serveRestoreChannel, hk, State.isChannel, hrole, hstate]; rfl

/-! ### The admin modes -/

/-- A hold for a channel ends; every other copy is as it was. -/
theorem copyAt_releaseHolds (s : State) (k : Port) (n i : Nat) :
    (s.releaseHolds k).copyAt n i = (s.copyAt n i).map fun c => if c.heldFor k then c.become .waiting else c := by
  have hfind : (s.releaseHolds k).findMsg n = (s.findMsg n).map fun m =>
      { m with copies := m.copies.map fun c => if c.heldFor k then c.become .waiting else c } := by
    simp only [State.findMsg, State.releaseHolds, List.find?_map]
    rfl
  unfold State.copyAt
  rw [hfind]
  cases s.findMsg n with
  | none => rfl
  | some m => simp

theorem serveSetChannelAdmin_channel {s : State} {port mode : Byte} {k : Port} {m : AdminMode} (hk : portOf port = some k)
    (hm : adminOf mode = some m) (hrole : s.roles.get k = .channel) :
    serveSetChannelAdmin port mode s = (s.enterMode k m).answer .ok
      (be8 (adminCode (s.admin.get k)) ++ be8 mode.toNat ++ be8 ((s.enterMode k m).channels.get k).state.count) := by
  have hcode : adminCode m = mode.toNat := by
    have key : ∀ b : Byte, ∀ m, adminOf b = some m → adminCode m = b.toNat := by decide
    exact key mode m hm
  simp [serveSetChannelAdmin, hk, hm, State.isChannel, hrole, hcode]

/-- Settles O41. -/
theorem adminModesAct : Obligations.AdminModesAct := by
  refine ⟨?_, fun s k n i => ?_⟩
  · intro p tag port mode s hfree hconsole answered
    have answer {u : State} {r : Result} {fields : List Byte} (h : serveSetChannelAdmin port mode s = u.answer r fields)
        (hunits : u.units = s.units) : answered u r fields :=
      answered_of_serve (i := .setChannelAdmin p tag port mode) rfl hfree rfl (by rw [hconsole]; rfl) rfl h hunits
    refine ⟨fun hbad => answer ?_ rfl, fun k m hk hm => ⟨fun hrole => answer ?_ rfl, ?_⟩⟩
    · unfold serveSetChannelAdmin
      split
      next hk hm =>
        rcases hbad with h | h
        · rw [h] at hk; cases hk
        · rw [adminOf_eq, List.getElem?_eq_none_iff.mpr (show 4 ≤ mode.toNat by omega)] at hm; cases hm
      next => rfl
    · simp [serveSetChannelAdmin, hk, hm, State.isChannel, hrole]
    · intro hrole c was
      have hserve := serveSetChannelAdmin_channel hk hm hrole
      refine ⟨fun h => answer ?_ rfl, fun h => answer ?_ rfl, fun h hask => answer ?_ rfl, fun h hask => answer ?_ rfl⟩
      · rw [hserve]; rcases h with rfl | rfl <;> rfl
      · rw [hserve, h]; rfl
      · obtain ⟨n, f, hask⟩ := hask
        have henter : s.enterMode k m = ({ s with admin := s.admin.set k m }.setChan k .ready).releaseHolds k := by
          subst h
          simp only [State.enterMode, show (s.channels.get k).state = _ from hask]
        have hcount : ((s.enterMode k m).channels.get k).state.count = 0 := by
          rw [henter]; simp [State.releaseHolds, State.setChan, ChanState.count]
        rw [hserve, hcount, henter]; rfl
      · have henter : s.enterMode k m = { s with admin := s.admin.set k m }.releaseHolds k := by
          subst h
          unfold State.enterMode
          dsimp only
          split
          next n f hst => exact absurd hst (hask n f)
          next => rfl
        have hcount : ((s.enterMode k m).channels.get k).state.count = 0 := by
          rw [henter]
          show c.state.count = 0
          cases hst : c.state with
          | asking n f => exact absurd hst (hask n f)
          | closed | ready | lapsed => rfl
        rw [hserve, hcount, henter]; rfl
  · rw [copyAt_releaseHolds]
    refine congrArg (fun g => (s.copyAt n i).map g) (funext fun c => ?_)
    cases hst : c.state with
    | none => simp [Copy.heldFor, hst]
    | some x =>
      cases x with
      | heldFor q ends => by_cases hq : q = k <;> simp [Copy.heldFor, hst, hq, Copy.become]
      | _ => simp [Copy.heldFor, hst]

/-! ### The standing asks -/

theorem hasPair_eq_false_iff {s : State} {p : Port} : s.hasPair p = false ↔ s.pairsOf p = [] := by
  simp [State.hasPair]

theorem beEntry_eq (f : Option Nat) : beEntry f = (match f with | some e => be8 e | none => be8 0xFF) := by
  cases f <;> rfl

/-- An ASK that waits is answered once its port is in no pair. -/
theorem closeAsk_asking (s : State) (p : Port) (f : Frame) (clamped stood : Nat) (filter : Option Nat) (records : List (List Byte)) :
    s.closeAsk p (some (.asking f clamped stood filter records)) = some (
      if s.pairsOf p = [] then .replying f (replyFrame f .ok (askFields clamped stood filter records)) 0
      else .asking f clamped stood filter records) := by
  by_cases h : s.pairsOf p = []
  · simp [State.closeAsk, hasPair_eq_false_iff.mpr h, h]
  · have hpair : s.hasPair p = true := by rw [← Bool.not_eq_false, hasPair_eq_false_iff]; exact h
    simp [State.closeAsk, hpair, h]

theorem isBlankCall_iff {c : List Byte} : isBlankCall c = true ↔ c = List.replicate 7 0x20 := by
  simp only [isBlankCall, beq_iff_eq]; rfl

theorem callOf_blank : callOf (List.replicate 7 0x20) = none := by decide

/-- The filter of an ASK, tested (R124). -/
theorem filterTest_blank (s : State) : s.filterTest (List.replicate 7 0x20) = .noFilter := by
  rw [State.filterTest, if_pos (isBlankCall_iff.mpr rfl)]

theorem filterTest_call {s : State} {filter : List Byte} {c : Call} (h : callOf filter = some c) : s.filterTest filter =
    if c = s.ownCall then .own else match findCall s.book c with | some e => .entry e | none => .unknown := by
  have hblank : ¬ isBlankCall filter = true := fun hb => by rw [isBlankCall_iff.mp hb, callOf_blank] at h; cases h
  rw [State.filterTest, if_neg hblank]
  simp only [h, beq_iff_eq] <;> rfl

theorem filterTest_ne_badField {s : State} {filter : List Byte} (h : filter = List.replicate 7 0x20 ∨ callOf filter ≠ none) :
    s.filterTest filter ≠ .badField := by
  rcases h with rfl | h
  · rw [filterTest_blank]; simp
  · obtain ⟨c, hc⟩ := Option.ne_none_iff_exists'.mp h
    rw [filterTest_call hc]
    split
    · simp
    · split <;> simp

/-- An ASK at a channel that may ask. -/
theorem serveAsk_active {s : State} {p : Port} {count : Byte} {filter : List Byte} (hform : s.filterTest filter ≠ .badField)
    (hactive : (s.channels.get p).state = .ready ∨ ∃ n f, (s.channels.get p).state = .asking n f) (hbar : s.admin.get p ≠ .bar) :
    serveAsk p count filter s = match s.filterTest filter with
      | .own => s.answer .state
      | .unknown => s.answer .noSuch
      | .entry e => s.standAsk p count (some e)
      | .noFilter | .badField => s.standAsk p count none := by
  rcases hactive with h | ⟨n, f, h⟩ <;>
    simp only [serveAsk, beq_iff_eq, if_neg hform, h, if_neg hbar] <;> rfl

/-- An ask that stands, served at its free port. -/
theorem standAsk_answered {s t : State} {p : Port} {frame : Frame} {clamped stood : Nat} {filter : Option Nat} {i : Instr}
    (hi : i.toFrame = some (p, frame)) (hfree : s.freeAt p = true) (hkind : isRequestKind frame.kind = true)
    (hrole : mayUse (s.roles.get p) frame.kind = true) (hlength : fieldLengthOk frame.kind frame.fields.length = true)
    (hserve : serveRequest i s = (t, .askStands clamped stood filter)) (hunits : t.units = s.units) :
    ∃ u, exec i s = .next u ∧ u.behind = t.behind
      ∧ u.units.get p = { s.units.get p with service := some (
          if u.pairsOf p = [] then .replying frame (replyFrame frame .ok (askFields clamped stood filter [])) 0
          else .asking frame clamped stood filter []) }
      ∧ (∀ q, q ≠ p → u.lineFollows s q) ∧ u.outputsAgree := by
  have hinto : s.intoService p frame (serveRequest i)
      = t.updUnit p fun x => { x with service := some (.asking frame clamped stood filter []) } := by
    simp [State.intoService, State.decodeTests, hkind, hrole, hlength, hserve, serviceFor]
  refine ⟨_, by rw [exec_request hi, submit_free hfree, hinto], by rw [State.finish_behind]; rfl, ?_, fun q hq => ?_,
    State.finish_outputs _⟩
  · rw [State.finish_unit, State.serviceOf]
    simp only [State.updUnit_units, PerPort.get_set_self, closeAsk_asking, hunits]
    rw [State.finish_eq]
    rfl
  · simp [State.lineFollows, State.finish_unit, State.serviceOf, hunits, PerPort.get_set_ne _ _ hq]

/-- A channel whose ask stands with a count, or has ended where none stands. -/
def Channel.standing (c : Channel) (stood : Nat) (f : Option Nat) : Channel :=
  { c with state := if stood = 0 then .ready else .asking stood f }

/-- The count that an ask stands at, and what the channel becomes. -/
theorem standAsk_eq (s : State) (p : Port) (count : Byte) (f : Option Nat) :
    s.standAsk p count f =
      let clamped := max 1 (min 4 count.toNat)
      let stood := min clamped (4 - (s.lists.get p).length)
      ({ s with channels := s.channels.set p ((s.channels.get p).standing stood f) },
        .askStands clamped stood (if stood = 0 then none else f)) := by
  have hcases (clamped stood : Nat) : (if stood = 0 then (s.setChan p .ready, Answer.askStands clamped 0 none)
        else (s.setChan p (.asking stood f), .askStands clamped stood f))
      = ({ s with channels := s.channels.set p ((s.channels.get p).standing stood f) },
          .askStands clamped stood (if stood = 0 then none else f)) := by
    by_cases h : stood = 0
    · simp only [Channel.standing, h, if_true]; rfl
    · simp only [Channel.standing, h, if_false]; rfl
  exact hcases _ _

/-- Settles O42. -/
theorem asksStandAndAreWithdrawn : Obligations.AsksStandAndAreWithdrawn := by
  intro p tag count filter s hfree hchannel hfilter c active blank frame refused withdraws
  have hlength : fieldLengthOk 0x22 (count :: filter).length = true := by rw [List.length_cons, hfilter]; rfl
  have refuse {r : Result} (h : serveAsk p count filter s = s.answer r []) : refused r :=
    answered_of_serve (i := .ask p tag count filter) rfl hfree rfl (by rw [hchannel]; rfl) hlength h rfl
  have withdraw {u : State} {r : Result} {fields : List Byte} (h : serveWithdrawAsk p s = u.answer r fields)
      (hunits : u.units = s.units) : withdraws u r fields :=
    answered_of_serve (i := .withdrawAsk p tag) rfl hfree rfl (by rw [hchannel]; rfl) rfl h hunits
  refine ⟨fun hblank hnone => refuse ?_, fun hform => ⟨fun hclosed => refuse ?_, fun hactive hbar => refuse ?_, fun hactive hbar => ⟨fun hown =>
    refuse ?_, fun q hq hown hno => refuse ?_, ?_⟩⟩, fun u f clamped stood filter records => ?_, fun n f hask => withdraw ?_ rfl,
    fun hready => withdraw ?_ rfl, fun hclosed => withdraw ?_ rfl⟩
  · have htest : s.filterTest filter = .badField := by
      rw [State.filterTest, if_neg (mt isBlankCall_iff.mp hblank), hnone]
    simp only [serveAsk, htest, beq_self_eq_true, if_true]
  · have hbad := filterTest_ne_badField (s := s) hform
    rcases hclosed with h | h
    · simp only [serveAsk, beq_iff_eq, if_neg hbad, show (s.channels.get p).state = _ from h]
    · simp only [serveAsk, beq_iff_eq, if_neg hbad, show (s.channels.get p).state = _ from h]
  · have hbad := filterTest_ne_badField (s := s) hform
    rcases hactive with h | ⟨n, f, h⟩
    · simp only [serveAsk, beq_iff_eq, if_neg hbad, show (s.channels.get p).state = _ from h, hbar, if_true]
    · simp only [serveAsk, beq_iff_eq, if_neg hbad, show (s.channels.get p).state = _ from h, hbar, if_true]
  · rw [serveAsk_active (filterTest_ne_badField hform) hactive hbar, filterTest_call hown, if_pos rfl]
  · rw [serveAsk_active (filterTest_ne_badField hform) hactive hbar, filterTest_call hq, if_neg hown, hno]
  · intro f hf clamped stood stands after
    have hserve : serveAsk p count filter s = s.standAsk p count f := by
      rw [serveAsk_active (filterTest_ne_badField hform) hactive hbar]
      rcases hf with ⟨hblank, rfl⟩ | ⟨q, hq, hown, hfound, hsome⟩
      · rw [show filter = List.replicate 7 0x20 from hblank, filterTest_blank]
      · obtain ⟨e, rfl⟩ := Option.ne_none_iff_exists'.mp hsome
        rw [filterTest_call hq, if_neg hown, ← hfound]
    rw [standAsk_eq] at hserve
    obtain ⟨t, hexec, hbehind, hunit, hothers, hout⟩ :=
      standAsk_answered (i := .ask p tag count filter) rfl hfree rfl (by rw [hchannel]; rfl) hlength hserve rfl
    refine ⟨t, hexec, hbehind, ?_, hothers, hout⟩
    rw [hunit, askFields, beEntry_eq, List.flatten_nil, List.append_nil] <;> rfl
  · rw [closeAsk_asking, askFields, beEntry_eq] <;> rfl
  · simp only [serveWithdrawAsk, show (s.channels.get p).state = _ from hask]; rfl
  · simp only [serveWithdrawAsk, show (s.channels.get p).state = _ from hready]
  · rcases hclosed with h | h
    · simp only [serveWithdrawAsk, show (s.channels.get p).state = _ from h]
    · simp only [serveWithdrawAsk, show (s.channels.get p).state = _ from h]

end Sys2Proof.Machine
end

section
/-! PROOF. EXTEND, the refusals of REPORT, and the affinity holds (R112, R113, R129, R130, R132). -/
namespace Sys2Proof.Machine

theorem copyAt_of_findMsg {s : State} {n i : Nat} {m : Message} (h : s.findMsg n = some m) : s.copyAt n i = m.copies[i]? := by
  rw [State.copyAt, h, Option.bind_some]

theorem isOpen_eq_false_iff {m : Message} : m.isOpen = false ↔ m.phase ≠ .opened := by
  rw [Ne, ← isOpen_iff, Bool.not_eq_true]

/-- Settles O43. -/
theorem extendMovesTheDeadline : Obligations.ExtendMovesTheDeadline := by
  intro p tag index number s hfree answered n i
  have hrole : mayUse (s.roles.get p) 0x19 = true := mayUse_of_hears (hears_of_freeAt hfree) (by decide)
  have answer {u : State} {r : Result} {fields : List Byte} (h : serveExtend p number index s = u.answer r fields)
      (hunits : u.units = s.units) : answered u r fields :=
    answered_of_serve (i := .extend p tag number index) rfl hfree rfl hrole rfl h hunits
  refine ⟨fun hbad => answer ?_ rfl, fun h1 h2 hi => ?_⟩
  · unfold serveExtend
    split
    next hn hi =>
      rcases hbad with h | h | h
      · rw [numberOf_eq_none (.inl h)] at hn; cases hn
      · rw [numberOf_eq_none (.inr h)] at hn; cases hn
      · rw [indexOf_eq_none h] at hi; cases hi
    next => rfl
  have hserve : serveExtend p number index s = match s.findMsg n with
      | none => s.answer .noSuch
      | some m => if m.copies.length ≤ i || m.isOpen then s.answer .noSuch else match s.entryOf p n i with
        | none => s.answer .notHeld
        | some e => if e.withdrawing then s.answer .state else if 2 ≤ e.extensions then s.answer .limit else
            (s.updEntry p n i fun x => { x with
              deadline := later s.clock (s.handOff.times.get m.prec), extensions := x.extensions + 1 }).answer .ok
              (be32 (later s.clock (s.handOff.times.get m.prec)) ++ be8 (e.extensions + 1)) := by
    rw [serveExtend, numberOf_eq_some h1 h2, indexOf_eq_some hi] <;> rfl
  refine ⟨fun hnone => answer ?_ rfl, fun m c hm hc => ?_⟩
  · rw [hserve]
    cases hm : s.findMsg n with
    | none => rfl
    | some m =>
      rw [copyAt_of_findMsg hm, List.getElem?_eq_none_iff] at hnone
      simp [hnone]
  have htests (hopen : m.phase ≠ .opened) : (decide (m.copies.length ≤ i) || m.isOpen) = false := by
    have hlt : i < m.copies.length := (List.getElem?_eq_some_iff.mp hc).1
    rw [isOpen_eq_false_iff.mpr hopen, Bool.or_false, decide_eq_false_iff_not]
    omega
  rw [hm] at hserve
  refine ⟨fun hopen => answer ?_ rfl, fun hopen => ⟨fun hnone => answer ?_ rfl, fun e he => ⟨fun hw => answer ?_ rfl,
    fun hw hlimit => answer ?_ rfl, ?_⟩⟩⟩
  · rw [hserve]
    simp [isOpen_iff.mpr hopen]
  · rw [hserve]
    simp only [htests hopen, Bool.false_eq_true, if_false, hnone]
  · rw [hserve]
    simp only [htests hopen, Bool.false_eq_true, if_false, he, hw, if_true]
  · rw [hserve]
    simp only [htests hopen, Bool.false_eq_true, if_false, he, hw, if_pos hlimit]
  · intro hw hbelow deadline
    refine answer ?_ rfl
    rw [hserve]
    simp only [htests hopen, Bool.false_eq_true, if_false, he, hw, if_neg (not_le.mpr hbelow), State.updEntry, Entry.names, Bool.and_eq_true,
      beq_iff_eq] <;> rfl

/-! ### The refusals of REPORT -/

/-- The outcomes are coded in their order. -/
theorem outcomeOf_eq_some {b : Byte} {o : ReportOutcome} (h : outcomeOf b = some o) :
    (b.toNat = 0 ↔ o = .delivered) ∧ (b.toNat = 1 ↔ o = .relayed) ∧ (b.toNat = 2 ↔ o = .noContact) ∧ (b.toNat = 3 ↔ o = .returned) := by
  rw [outcomeOf_eq] at h
  obtain ⟨hlt, hget⟩ := List.getElem?_eq_some_iff.mp h
  simp only [List.length_cons, List.length_nil] at hlt
  generalize b.toNat = k at *
  interval_cases k <;> subst hget <;> simp

theorem outcomeOf_isSome {b : Byte} (h : b.toNat ≤ 3) : ∃ o, outcomeOf b = some o := by
  rw [outcomeOf_eq]; exact ⟨_, List.getElem?_eq_getElem (show b.toNat < 4 by omega)⟩

/-- Tests 1 and 2 of R132 passed: a REPORT on a copy that exists. -/
theorem serveReport_copy {s : State} {p : Port} {number : Half} {index outcome : Byte} {relay : List Byte} {o : ReportOutcome} {m : Message}
    {c : Copy} (h1 : 1 ≤ number.toNat) (h2 : number.toNat ≤ 9999) (hi : index.toNat ≤ 7) (ho : outcomeOf outcome = some o)
    (hrelay : o = .relayed → callOf relay ≠ none) (hm : s.findMsg number.toNat = some m) (hc : m.copies[index.toNat]? = some c) :
    serveReport p number index outcome relay s = if m.isOpen then s.answer .noSuch
      else s.reportOn p number.toNat index.toNat m c o ((callOf relay).getD blankCall) := by
  have hform : (o == .relayed && (callOf relay).isNone) = false := by
    rw [Bool.and_eq_false_iff]
    by_cases h : o = .relayed
    · right; simpa [Option.isSome_iff_ne_none] using hrelay h
    · left; simpa using h
  simp only [serveReport, numberOf_eq_some h1 h2, indexOf_eq_some hi, ho, hform, Bool.false_eq_true, if_false, hm, hc]

/-- A REPORT off the port's own list, that is refused. -/
theorem reportOn_off {s : State} {p : Port} {n i : Nat} {m : Message} {c : Copy} {o : ReportOutcome} {relay : Call}
    (hform : (c.isLocal && (o == .relayed || o == .noContact)) = false) (hentry : s.entryOf p n i = none) :
    s.reportOn p n i m c o relay = if !s.lateRole p c then s.answer .notRole
      else if o == .noContact || o == .returned then s.answer .notHeld
      else if c.terminal then s.answer .already
      else (s.lateReport p n i c o relay).answer .lateAccepted ((s.lateReport p n i c o relay).reportFields n i) := by
  simp only [State.reportOn, hform, Bool.false_eq_true, if_false, hentry]

/-- Test 1 of R132 failed: the form. -/
theorem serveReport_unformed {s : State} {p : Port} {number : Half} {index outcome : Byte} {relay : List Byte}
    (h : ¬ (1 ≤ number.toNat ∧ number.toNat ≤ 9999 ∧ index.toNat ≤ 7 ∧ outcome.toNat ≤ 3 ∧ (outcome.toNat = 1 → callOf relay ≠ none))) :
    serveReport p number index outcome relay s = s.answer .badField [] := by
  unfold serveReport
  split
  next n i o hn hi ho =>
    split
    · rfl
    next hrelay =>
      obtain ⟨rfl, h1, h2⟩ := numberOf_eq_some_iff.mp hn
      have hindex : index.toNat ≤ 7 := by
        by_contra hlt
        rw [indexOf_eq_none (by omega)] at hi
        cases hi
      have houtcome : outcome.toNat ≤ 3 := by
        rw [outcomeOf_eq] at ho
        exact Nat.lt_succ_iff.mp (List.getElem?_eq_some_iff.mp ho).1
      refine absurd ⟨h1, h2, hindex, houtcome, fun hone hnone => hrelay ?_⟩ h
      rw [(outcomeOf_eq_some ho).2.1.mp hone, hnone]
      rfl
  next => rfl

/-- Settles O45. -/
theorem reportRefusalsComeInOrder : Obligations.ReportRefusalsComeInOrder := by
  intro p tag index outcome number relay s hfree hrelay refused n i formed
  have hears := hears_of_freeAt hfree
  have refuse {r : Result} (h : serveReport p number index outcome relay s = s.answer r []) : refused r :=
    answered_of_serve (i := .report p tag number index outcome relay) rfl hfree rfl (mayUse_of_hears (kind := 0x18) hears (by decide))
      (by simp [hrelay]; rfl) h rfl
  refine ⟨fun hform => refuse (serveReport_unformed hform), fun ⟨h1, h2, hi, ho, hcall⟩ hnone => refuse ?_,
    fun m c ⟨h1, h2, hi, ho, hcall⟩ hm hc => ?_⟩
  · obtain ⟨o, hout⟩ := outcomeOf_isSome ho
    have hform : (o == .relayed && (callOf relay).isNone) = false := by
      rw [Bool.and_eq_false_iff]
      by_cases h : o = .relayed
      · right; simpa [Option.isSome_iff_ne_none] using hcall ((outcomeOf_eq_some hout).2.1.mpr h)
      · left; simpa using h
    simp only [serveReport, numberOf_eq_some h1 h2, indexOf_eq_some hi, hout, hform, Bool.false_eq_true, if_false]
    cases hm : s.findMsg number.toNat with
    | none => rfl
    | some m =>
      rw [copyAt_of_findMsg hm] at hnone
      simp only [show m.copies[index.toNat]? = none from hnone]
  · obtain ⟨o, hout⟩ := outcomeOf_isSome ho
    obtain ⟨hdelivered, hrelayed, hcontact, hreturned⟩ := outcomeOf_eq_some hout
    have hserve := serveReport_copy (p := p) h1 h2 hi hout (fun h => hcall (hrelayed.mpr h)) hm hc
    have hfiled (hopen : m.phase ≠ .opened) : serveReport p number index outcome relay s
        = s.reportOn p n i m c o ((callOf relay).getD blankCall) := by
      rw [hserve, if_neg (mt isOpen_iff.mp hopen)]
    have hlocal (hstation : c.station = 0) : c.isLocal = true := by simp [Copy.isLocal, hstation]
    have hdistant (hstation : c.station ≠ 0) : c.isLocal = false := by simp [Copy.isLocal, hstation]
    refine ⟨fun hopen => refuse ?_, fun hopen hstation hbad => refuse ?_, fun hopen hstation hgood hentry => ?_,
      fun hopen hstation hentry => ?_⟩
    · rw [hserve, if_pos (isOpen_iff.mpr hopen)]
    · rw [hfiled hopen, State.reportOn, if_pos]
      rw [hlocal hstation, Bool.true_and, Bool.or_eq_true, beq_iff_eq, beq_iff_eq]
      exact hbad.imp hrelayed.mp hcontact.mp
    · have hform : (c.isLocal && (o == .relayed || o == .noContact)) = false := by
        rcases hgood with h | h
        · rw [hdelivered.mp h]; simp
        · rw [hreturned.mp h]; simp
      have hoff := reportOn_off (m := m) (relay := (callOf relay).getD blankCall) hform hentry
      have hrole : s.lateRole p c = s.isDesk p := by rw [State.lateRole, hlocal hstation]; rfl
      have hdesk (hne : s.roles.get p ≠ .channel) : s.isDesk p = true := by
        have hoff := PortUnit.role_ne_off_of_hears hears
        cases hr : s.roles.get p <;> simp_all [State.isDesk]
      refine ⟨fun hchannel => refuse ?_, fun hne h3 => refuse ?_, fun hne h0 hterm => refuse ?_⟩
      · rw [hfiled hopen, hoff, if_pos]
        simp [hrole, State.isDesk, hchannel]
      · rw [hfiled hopen, hoff, if_neg (by simp [hrole, hdesk hne]), if_pos (by simp [hreturned.mp h3])]
      · rw [hfiled hopen, hoff, if_neg (by simp [hrole, hdesk hne]), if_neg (by simp [hdelivered.mp h0]), if_pos hterm]
    · have hform : (c.isLocal && (o == .relayed || o == .noContact)) = false := by rw [hdistant hstation, Bool.false_and]
      have hoff := reportOn_off (m := m) (relay := (callOf relay).getD blankCall) hform hentry
      have hrole : s.lateRole p c = s.isChannel p := by rw [State.lateRole, hdistant hstation]; rfl
      refine ⟨fun hne => refuse ?_, fun hchannel h2 => refuse ?_, fun hchannel h1 hterm => refuse ?_⟩
      · rw [hfiled hopen, hoff, if_pos]
        simp [hrole, State.isChannel, hne]
      · have hlate : (o == .noContact || o == .returned) = true := by
          have : outcome.toNat = 2 ∨ outcome.toNat = 3 := by omega
          rw [Bool.or_eq_true, beq_iff_eq, beq_iff_eq]
          exact this.imp hcontact.mp hreturned.mp
        rw [hfiled hopen, hoff, if_neg (by simp [hrole, State.isChannel, hchannel]), if_pos hlate]
      · have hlate : (o == .noContact || o == .returned) = false := by
          have : outcome.toNat = 0 ∨ outcome.toNat = 1 := by omega
          rcases this with h | h
          · rw [hdelivered.mp h]; rfl
          · rw [hrelayed.mp h]; rfl
        rw [hfiled hopen, hoff, if_neg (by simp [hrole, State.isChannel, hchannel]), if_neg (by simp [hlate]), if_pos hterm]

/-! ### Affinity holds -/

theorem mayHold_iff {s : State} {k : Port} : s.mayHold k = true ↔ s.roles.get k = .channel
    ∧ ((s.channels.get k).state = .ready ∨ ∃ n f, (s.channels.get k).state = .asking n f)
    ∧ (s.admin.get k = .none_ ∨ s.admin.get k = .step) := by
  simp only [State.mayHold, Bool.and_eq_true, isChannel_iff, Bool.or_eq_true, beq_iff_eq, and_assoc]
  refine and_congr_right fun _ => and_congr_left fun _ => ?_
  cases (s.channels.get k).state <;> simp

/-- Settles O37. -/
theorem affinityHoldsMeetTheSixConditions : Obligations.AffinityHoldsMeetTheSixConditions := by
  intro s prec c
  have hage : Config.affinityAge = 1800 := rfl
  have hcases : s.entryState prec c = match (s.station c.station).bind Station.affinity with
      | none => .waiting
      | some a => if prec ≠ .life ∧ c.station ≠ 0 ∧ s.clock - a.stamp ≤ 1800 ∧ s.mayHold a.port = true ∧ s.dispatch.window ≠ 0
            ∧ (c.pinned = none ∨ c.pinned = some a.port)
          then .heldFor a.port (later s.clock s.dispatch.window) else .waiting := by
    unfold State.entryState
    cases (s.station c.station).bind Station.affinity with
    | none => rfl
    | some a =>
      refine if_congr ?_ rfl rfl
      simp only [Bool.and_eq_true, bne_iff_ne, Bool.not_eq_true', Copy.isLocal, beq_eq_false_iff_ne, Affinity.current, hage,
        decide_eq_true_eq, Bool.or_eq_true, beq_iff_eq, and_assoc]
  have hmax : Config.clockMax = 4294967295 := rfl
  refine ⟨fun a ends => ?_, ?_⟩
  · cases haff : (s.station c.station).bind Station.affinity with
    | none =>
      rw [haff] at hcases
      rw [hcases]
      refine ⟨fun h => (nomatch h), ?_⟩
      rintro ⟨-, -, ⟨st, stamp, hst, hstamp, -⟩, -⟩
      rw [hst, Option.bind_some, hstamp] at haff
      cases haff
    | some b =>
      rw [haff] at hcases
      obtain ⟨st, hst, hb⟩ := Option.bind_eq_some_iff.mp haff
      have hstation : (∃ st' stamp, s.station c.station = some st' ∧ st'.affinity = some ⟨a, stamp⟩ ∧ s.clock - stamp ≤ 1800)
          ↔ b.port = a ∧ s.clock - b.stamp ≤ 1800 := by
        constructor
        · rintro ⟨st', stamp, hst', hstamp, hage'⟩
          rw [hst] at hst'
          cases hst'
          rw [hb] at hstamp
          cases hstamp
          exact ⟨rfl, hage'⟩
        · rintro ⟨rfl, hage'⟩
          exact ⟨st, b.stamp, hst, hb, hage'⟩
      rw [hcases, hstation, ← mayHold_iff, Nat.pos_iff_ne_zero]
      simp only [later, hmax]
      constructor
      · intro h
        split at h
        next hall =>
          cases h
          obtain ⟨hprec, hlocal, hage', hhold, hwindow, hpin⟩ := hall
          exact ⟨hprec, hlocal, ⟨rfl, hage'⟩, hhold, hwindow, hpin, rfl⟩
        next => cases h
      · rintro ⟨hprec, hlocal, ⟨rfl, hage'⟩, hhold, hwindow, hpin, rfl⟩
        rw [if_pos ⟨hprec, hlocal, hage', hhold, hwindow, hpin⟩]
  · generalize s.entryState prec c = x at hcases
    subst hcases
    cases (s.station c.station).bind Station.affinity with
    | none => exact .inl rfl
    | some a =>
      dsimp only
      by_cases hall : prec ≠ .life ∧ c.station ≠ 0 ∧ s.clock - a.stamp ≤ 1800 ∧ s.mayHold a.port = true ∧ s.dispatch.window ≠ 0
          ∧ (c.pinned = none ∨ c.pinned = some a.port)
      · exact .inr ⟨_, _, if_pos hall⟩
      · exact .inl (if_neg hall)

end Sys2Proof.Machine
end

section
/-! PROOF. The Traffic Store: local numbers, the purge of one message, and auto-purge (R7, R15, R17, R40). -/
namespace Sys2Proof.Machine

/-! ### Local numbers (R7) -/

/-- The candidates from a last-assigned number on, in closed form. -/
theorem numberAfter_iterate {a : Nat} (ha : a ≤ 9999) (k : Nat) : numberAfter^[k + 1] a = (a + k) % 9999 + 1 := by
  have hmax : Config.numberMax = 9999 := rfl
  induction k with
  | zero =>
    rw [Function.iterate_one, numberAfter, hmax]
    split <;> omega
  | succ k ih =>
    rw [Function.iterate_succ_apply', ih, numberAfter, hmax]
    split <;> omega

theorem numberTaken_iff (s : State) (n : Nat) :
    s.numberTaken n = true ↔ (∃ m ∈ s.store, m.number = n) ∨ (⟨s.ownCall, n⟩ : Key) ∈ s.dupTable := by
  simp [State.numberTaken]

/-- The search stops at the first candidate that is not passed over. -/
theorem findNumber_eq {s : State} {k : Nat} : ∀ {fuel n : Nat}, k < fuel → s.numberTaken (numberAfter^[k] n) = false →
    (∀ j, j < k → s.numberTaken (numberAfter^[j] n) = true) → s.findNumber fuel n = numberAfter^[k] n := by
  induction k with
  | zero =>
    intro fuel n hk hfree _
    obtain ⟨fuel, rfl⟩ : ∃ d, fuel = d + 1 := ⟨fuel - 1, by omega⟩
    rw [Function.iterate_zero_apply] at hfree
    simp [State.findNumber, hfree]
  | succ k ih =>
    intro fuel n hk hfree htaken
    obtain ⟨fuel, rfl⟩ : ∃ d, fuel = d + 1 := ⟨fuel - 1, by omega⟩
    have h0 := htaken 0 (by omega)
    rw [Function.iterate_zero_apply] at h0
    rw [State.findNumber, if_pos h0, Function.iterate_succ_apply]
    exact ih (by omega) (by rwa [Function.iterate_succ_apply] at hfree) fun j hj => by
      have := htaken (j + 1) (by omega)
      rwa [Function.iterate_succ_apply] at this

/-- The numbers that are passed over, at most two for each message: its own, and the serial of its key. -/
def State.passedOver (s : State) : Finset Nat := (s.store.map Message.number).toFinset ∪ (s.dupTable.map Key.serial).toFinset

theorem mem_passedOver {s : State} {n : Nat} (h : s.numberTaken n = true) : n ∈ s.passedOver := by
  rw [State.passedOver, Finset.mem_union, List.mem_toFinset, List.mem_toFinset]
  rcases (numberTaken_iff s n).mp h with ⟨m, hm, rfl⟩ | hkey
  · exact .inl (List.mem_map_of_mem hm)
  · exact .inr (List.mem_map_of_mem hkey)

theorem card_passedOver {s : State} (h : s.storeInLaw) : s.passedOver.card ≤ 256 := by
  obtain ⟨hslots, -, -, hkeys, -⟩ := h
  have hslots : s.store.length ≤ 128 := hslots
  have hlength : s.dupTable.length = s.store.length := by rw [hkeys.length_eq, List.length_map]
  calc s.passedOver.card ≤ (s.store.map Message.number).toFinset.card + (s.dupTable.map Key.serial).toFinset.card :=
        Finset.card_union_le ..
    _ ≤ (s.store.map Message.number).length + (s.dupTable.map Key.serial).length :=
        Nat.add_le_add (List.toFinset_card_le _) (List.toFinset_card_le _)
    _ ≤ 256 := by rw [List.length_map, List.length_map, hlength]; omega

/-- Of the first 257 candidates, which are all different, one is not passed over. -/
theorem exists_not_taken {s : State} (h : s.storeInLaw) : ∃ k, k < 257 ∧ s.numberTaken (numberAfter^[k + 1] s.lastNumber) = false := by
  by_contra hall
  have hlast : s.lastNumber ≤ 9999 := h.2.2.2.2.1
  have hsub : (Finset.range 257).image (fun k => numberAfter^[k + 1] s.lastNumber) ⊆ s.passedOver := by
    intro n hn
    obtain ⟨k, hk, rfl⟩ := Finset.mem_image.mp hn
    refine mem_passedOver ?_
    by_contra hfree
    exact hall ⟨k, Finset.mem_range.mp hk, by simpa using hfree⟩
  have hinj : Set.InjOn (fun k => numberAfter^[k + 1] s.lastNumber) (Finset.range 257 : Set Nat) := by
    intro i hi j hj hij
    simp only [Finset.coe_range, Set.mem_Iio] at hi hj
    simp only [numberAfter_iterate hlast] at hij
    omega
  have hcard := Finset.card_le_card hsub
  rw [Finset.card_image_of_injOn hinj, Finset.card_range] at hcard
  have := card_passedOver h
  omega

/-- The number given: the first candidate that is not passed over, and within 257. -/
theorem nextNumber_spec {s : State} (h : s.storeInLaw) : ∃ k, k ≤ 256 ∧ s.nextNumber = numberAfter^[k + 1] s.lastNumber
    ∧ s.numberTaken s.nextNumber = false ∧ ∀ j, j < k → s.numberTaken (numberAfter^[j + 1] s.lastNumber) = true := by
  have hexists := exists_not_taken h
  have hk := Nat.find_spec hexists
  have hbefore (j : Nat) (hj : j < Nat.find hexists) : s.numberTaken (numberAfter^[j + 1] s.lastNumber) = true := by
    have := Nat.find_min hexists hj
    by_contra hfree
    exact this ⟨by omega, by simpa using hfree⟩
  have hnext : s.nextNumber = numberAfter^[Nat.find hexists + 1] s.lastNumber := by
    rw [State.nextNumber, Function.iterate_succ_apply]
    exact findNumber_eq hk.1 (by rw [← Function.iterate_succ_apply]; exact hk.2) fun j hj => by
      rw [← Function.iterate_succ_apply]; exact hbefore j hj
  exact ⟨_, by omega, hnext, by rw [hnext]; exact hk.2, hbefore⟩

theorem nextNumber_range {s : State} (h : s.storeInLaw) : 1 ≤ s.nextNumber ∧ s.nextNumber ≤ 9999 := by
  obtain ⟨k, -, hk, -⟩ := nextNumber_spec h
  have hlast : s.lastNumber ≤ 9999 := h.2.2.2.2.1
  rw [hk, numberAfter_iterate hlast]
  omega

/-- Settles O34. -/
theorem localNumberIsTheFirstFreeCandidate : Obligations.LocalNumberIsTheFirstFreeCandidate := by
  intro s h taken
  obtain ⟨k, hk, hnext, hfree, hbefore⟩ := nextNumber_spec h
  obtain ⟨hlow, hhigh⟩ := nextNumber_range h
  refine ⟨hlow, hhigh, ?_, k, hk, hnext, fun j hj => (numberTaken_iff s _).mp (hbefore j hj)⟩
  rw [show taken s.nextNumber ↔ s.numberTaken s.nextNumber = true from (numberTaken_iff s _).symm, hfree]
  exact Bool.false_ne_true

/-! ### The purge of one message (R15) -/

/-- The state with the book left out of account. -/
def State.bookless (s : State) : State := { s with book := [] }

theorem updStations_bookless (copies : List Copy) (f : Copy → Station → Station) (s : State) :
    (copies.foldl (fun t c => t.updStation c.station (f c)) s).bookless = s.bookless :=
  foldl_keeps (f := fun (t : State) (c : Copy) => t.updStation c.station (f c)) (g := State.bookless) (fun _ _ => rfl) copies s

theorem bookless_ext {s t : State} (h : t.bookless = s.bookless) : t = { s with book := t.book } := by
  cases s; cases t; simp only [State.bookless, State.mk.injEq] at h ⊢; simp_all

/-- A purge, but for what it does to the book. -/
theorem purgeMsg_eq (s : State) (m : Message) : s.purgeMsg m = { s with
    store := s.store.filter fun x => x.number != m.number
    dupTable := s.dupTable.erase m.key
    ring := joinRing s.ring m.key
    book := (s.purgeMsg m).book } := by
  have h := bookless_ext (updStations_bookless m.copies (fun c => Station.recount c.live false) s)
  unfold State.purgeMsg
  dsimp only
  rw [h]
  rfl

/-- The waiting counts of the stations, lowered for each live copy that a list of copies holds for them. -/
theorem station_lowerAll (copies : List Copy) (s : State) (e : Nat) :
    (copies.foldl (fun t c => t.updStation c.station (Station.recount c.live false)) s).station e
      = (s.station e).map fun st => { st with waiting := st.waiting - copies.countP fun c => c.live && c.station == e } := by
  induction copies generalizing s with
  | nil => cases h : s.station e <;> simp [h]
  | cons c cs ih =>
    rw [List.foldl_cons, ih, State.station_updStation]
    by_cases he : e = c.station
    · subst he
      cases s.station c.station with
      | none => simp
      | some st =>
        cases hlive : c.live <;> simp [Station.recount, hlive, List.countP_cons]
        omega
    · have hne : ¬ c.station = e := fun h => he h.symm
      simp [he, hne, List.countP_cons]

theorem station_purgeMsg (s : State) (m : Message) (e : Nat) : (s.purgeMsg m).station e
    = (s.station e).map fun st => { st with waiting := st.waiting - m.copies.countP fun c => c.live && c.station == e } :=
  station_lowerAll m.copies s e

theorem mem_freeBlockList {s : State} {b : Nat} : b ∈ s.freeBlockList ↔ b < 2048 ∧ ∀ x ∈ s.store, b ∉ x.chain := by
  simp [State.freeBlockList, State.heldBlocks]

/-- What one auto-purge does. -/
theorem autoPurgeOne_spec (s : State) (m : Message) :
    let t := s.autoPurgeOne m
    t.dupTable = s.dupTable.erase m.key
    ∧ t.ring = (if s.ring.length < 64 then s.ring else s.ring.drop 1) ++ [m.key]
    ∧ (∀ e, t.station e = (s.station e).map fun st =>
        { st with waiting := st.waiting - m.copies.countP fun c => c.live && c.station == e })
    ∧ (∀ b, b ∈ t.freeBlockList ↔ b < 2048 ∧ ∀ x ∈ s.store, x.number ≠ m.number → b ∉ x.chain)
    ∧ t = { s with
        store := s.store.filter fun x => x.number != m.number
        dupTable := t.dupTable, ring := t.ring, book := t.book
        totals := { s.totals with autoPurges := min (s.totals.autoPurges + 1) 65535 } } := by
  intro t
  have ht : t = { s with
      store := s.store.filter fun x => x.number != m.number
      dupTable := s.dupTable.erase m.key, ring := joinRing s.ring m.key, book := (s.purgeMsg m).book
      totals := { s.totals with autoPurges := min (s.totals.autoPurges + 1) 65535 } } := by
    simp only [t, State.autoPurgeOne]
    rw [purgeMsg_eq]
    rfl
  refine ⟨by rw [ht], ?_, station_purgeMsg s m, fun b => ?_, by rw [ht]⟩
  · have hmax : Config.ringMax = 64 := rfl
    rw [ht]
    simp only [joinRing, hmax]
    by_cases h : 64 ≤ s.ring.length
    · rw [if_pos h, if_neg (by omega)]
    · rw [if_neg h, if_pos (by omega)]
  · rw [mem_freeBlockList, ht]
    simp only [List.mem_filter, bne_iff_ne, and_imp]

/-! ### Auto-purge (R17) -/

theorem insertCand_perm (m : Message) (l : List Message) : (insertCand m l).Perm (m :: l) := by
  induction l with
  | nil => exact .refl _
  | cons x xs ih =>
    unfold insertCand
    split
    · exact .refl _
    · exact (ih.cons x).trans (.swap m x xs)

theorem purgesBefore_sequence {x y : Message} :
    (purgesBefore x y = true → x.sequence ≤ y.sequence) ∧ (purgesBefore x y = false → y.sequence ≤ x.sequence) := by
  unfold purgesBefore
  split
  · simp only [decide_eq_true_eq, decide_eq_false_iff_not]
    exact ⟨le_of_lt, not_lt.mp⟩
  next h =>
    have : x.sequence = y.sequence := by simpa using h
    exact ⟨fun _ => this.le, fun _ => this.ge⟩

theorem insertCand_sorted {m : Message} {l : List Message} (h : l.Pairwise fun x y => x.sequence ≤ y.sequence) :
    (insertCand m l).Pairwise fun x y => x.sequence ≤ y.sequence := by
  induction l with
  | nil => simp [insertCand]
  | cons x xs ih =>
    obtain ⟨hx, hxs⟩ := List.pairwise_cons.mp h
    unfold insertCand
    split
    next hbefore =>
      have hmx := purgesBefore_sequence.1 hbefore
      refine List.pairwise_cons.mpr ⟨fun y hy => ?_, h⟩
      rcases List.mem_cons.mp hy with rfl | hy
      · exact hmx
      · exact hmx.trans (hx y hy)
    next hbefore =>
      have hxm := purgesBefore_sequence.2 (by simpa using hbefore)
      refine List.pairwise_cons.mpr ⟨fun y hy => ?_, ih hxs⟩
      rcases List.mem_cons.mp ((insertCand_perm m xs).mem_iff.mp hy) with rfl | hy
      · exact hxm
      · exact hx y hy

theorem foldr_insertCand_perm (l : List Message) : (l.foldr insertCand []).Perm l := by
  induction l with
  | nil => exact .refl _
  | cons m l ih => exact (insertCand_perm m _).trans (ih.cons m)

theorem foldr_insertCand_sorted (l : List Message) : (l.foldr insertCand []).Pairwise fun x y => x.sequence ≤ y.sequence := by
  induction l with
  | nil => exact .nil
  | cons m l ih => exact insertCand_sorted ih

theorem purgeCands_perm (s : State) : s.purgeCands.Perm (s.store.filter fun m => m.isClosed && !m.hasFailed) :=
  foldr_insertCand_perm _

/-- The shortest run of candidates whose purging meets the condition. -/
theorem autoPurgeRun_eq_some_iff {cond : State → Bool} {ms : List Message} {s t : State} : autoPurgeRun cond ms s = some t ↔
    ∃ k, 1 ≤ k ∧ k ≤ ms.length ∧ t = (ms.take k).foldl State.autoPurgeOne s ∧ cond t = true
      ∧ ∀ j, 1 ≤ j → j < k → cond ((ms.take j).foldl State.autoPurgeOne s) = false := by
  induction ms generalizing s with
  | nil =>
    refine ⟨fun h => (nomatch h), ?_⟩
    rintro ⟨k, h1, h0, -⟩
    simp only [List.length_nil] at h0
    omega
  | cons m ms ih =>
    rw [autoPurgeRun]
    split
    next hcond =>
      constructor
      · intro h
        cases h
        exact ⟨1, le_refl _, by simp, rfl, hcond, fun j h1 h2 => by omega⟩
      · rintro ⟨k, h1, -, rfl, -, hbefore⟩
        rcases Nat.lt_or_ge 1 k with hk | hk
        · have := hbefore 1 (le_refl _) hk
          rw [show (List.take 1 (m :: ms)).foldl State.autoPurgeOne s = s.autoPurgeOne m from rfl, hcond] at this
          cases this
        · rw [show k = 1 by omega]; rfl
    next hcond =>
      rw [ih]
      constructor
      · rintro ⟨k, h1, hk, rfl, ht, hbefore⟩
        refine ⟨k + 1, by omega, by simpa using hk, rfl, ht, fun j hj1 hjk => ?_⟩
        obtain ⟨j, rfl⟩ : ∃ d, j = d + 1 := ⟨j - 1, by omega⟩
        rcases Nat.eq_zero_or_pos j with rfl | hj
        · exact Bool.eq_false_iff.mpr hcond
        · exact hbefore j hj (by omega)
      · rintro ⟨k, h1, hk, rfl, ht, hbefore⟩
        obtain ⟨k, rfl⟩ : ∃ d, k = d + 1 := ⟨k - 1, by omega⟩
        rcases Nat.eq_zero_or_pos k with rfl | hpos
        · exact absurd ht hcond
        · exact ⟨k, hpos, by simpa using hk, rfl, ht, fun j hj1 hjk => hbefore (j + 1) (by omega) (by omega)⟩

/-- Where no run is enough, none of them meets the condition. -/
theorem autoPurgeRun_eq_none {cond : State → Bool} {ms : List Message} {s : State} (h : autoPurgeRun cond ms s = none) (k : Nat)
    (h1 : 1 ≤ k) (hk : k ≤ ms.length) : cond ((ms.take k).foldl State.autoPurgeOne s) = false := by
  induction ms generalizing s k with
  | nil => simp only [List.length_nil] at hk; omega
  | cons m ms ih =>
    rw [autoPurgeRun] at h
    split at h
    · cases h
    next hcond =>
      obtain ⟨k, rfl⟩ : ∃ d, k = d + 1 := ⟨k - 1, by omega⟩
      rcases Nat.eq_zero_or_pos k with rfl | hpos
      · exact Bool.eq_false_iff.mpr hcond
      · exact ih h k hpos (by simpa using hk)

/-- Settles O35. -/
theorem autoPurgeTakesTheShortestRun : Obligations.AutoPurgeTakesTheShortestRun := by
  refine ⟨fun s cond => ⟨fun h => ?_, fun h hoff => ?_, fun h hon t => ?_, fun h hnone hon => ?_⟩, fun s => ⟨purgeCands_perm s, ?_⟩⟩
  · simp [State.makeRoom, h]
  · simp [State.makeRoom, h, hoff]
  · rw [← autoPurgeRun_eq_some_iff]
    simp [State.makeRoom, h, hon]
  · simp only [State.makeRoom, h, hon, Bool.false_eq_true, if_false, if_true] at hnone
    exact autoPurgeRun_eq_none hnone
  · exact (foldr_insertCand_sorted _).imp fun h => ⟨h, autoPurgeOne_spec⟩

end Sys2Proof.Machine
end

section
/-! PROOF. LODGE PART, LODGE CLOSE, LODGE DROP and the open timeout (R31 to R37). -/
namespace Sys2Proof.Machine

/-! ### The open message -/

theorem findMsg_number {s : State} {n : Nat} {m : Message} (h : s.findMsg n = some m) : m.number = n := by
  simpa using List.find?_some h

theorem findMsg_mem {s : State} {n : Nat} {m : Message} (h : s.findMsg n = some m) : m ∈ s.store := List.mem_of_find?_eq_some h

theorem lodgedMsg_none {s : State} {p : Port} (h : s.lodges.get p = none) : s.lodgedMsg p = none := by simp [State.lodgedMsg, h]

theorem lodgedMsg_some {s : State} {p : Port} {l : Lodge} (h : s.lodges.get p = some l) : s.lodgedMsg p = s.findMsg l.number := by
  simp [State.lodgedMsg, h]

/-! ### The store-low condition (R13) -/

/-- The store-low condition re-examined, whole. -/
theorem checkLow_eq (s : State) : s.checkLow = { s with status := s.statusIfLow s.low, prevLow := s.low } := by
  have hstatus := s.raiseConsolesIf_status (s.low && !s.prevLow) (k := .storeLow) (by decide)
  have hfixed : s.raiseConsolesIf (s.low && !s.prevLow) .storeLow
      = { s with status := (s.raiseConsolesIf (s.low && !s.prevLow) .storeLow).status } := by
    cases s.low && !s.prevLow <;> rfl
  rw [State.checkLow, hfixed, hstatus]
  rfl

/-! ### What auto-purge leaves -/

/-- What no auto-purge touches: all but the store, the keys, the waiting counts and the counts. -/
def State.unpurged (s : State) : State :=
  { s with store := [], dupTable := [], ring := [], book := [], totals := ⟨0, 0, 0⟩ }

theorem autoPurgeOne_unpurged (s : State) (m : Message) : (s.autoPurgeOne m).unpurged = s.unpurged := by
  obtain ⟨-, -, -, -, h⟩ := autoPurgeOne_spec s m
  rw [h]; rfl

theorem makeRoom_cases {s t : State} {cond : State → Bool} (h : s.makeRoom cond = some t) :
    cond t = true ∧ (t = s ∨ ∃ k, t = (s.purgeCands.take k).foldl State.autoPurgeOne s) := by
  unfold State.makeRoom at h
  split at h
  next hcond => cases h; exact ⟨hcond, .inl rfl⟩
  next =>
    split at h
    · obtain ⟨k, -, -, ht, hcond, -⟩ := autoPurgeRun_eq_some_iff.mp h
      exact ⟨hcond, .inr ⟨k, ht⟩⟩
    · cases h

theorem makeRoom_unpurged {s t : State} {cond : State → Bool} (h : s.makeRoom cond = some t) : t.unpurged = s.unpurged := by
  rcases (makeRoom_cases h).2 with rfl | ⟨k, rfl⟩
  · rfl
  · exact foldl_keeps autoPurgeOne_unpurged _ _

theorem findMsg_removeMsg {s : State} {n k : Nat} (h : k ≠ n) : (s.removeMsg n).findMsg k = s.findMsg k := by
  simp only [State.findMsg, State.removeMsg, List.find?_filter]
  refine List.find?_congr fun m _ => ?_
  by_cases hm : m.number = k
  · simp [hm, h]
  · simp [hm]

theorem findMsg_autoPurgeOne {s : State} {m : Message} {k : Nat} (h : k ≠ m.number) : (s.autoPurgeOne m).findMsg k = s.findMsg k := by
  have hstore : (s.autoPurgeOne m).store = (s.removeMsg m.number).store := by
    obtain ⟨-, -, -, -, h⟩ := autoPurgeOne_spec s m
    rw [h]; rfl
  have hfind : (s.autoPurgeOne m).findMsg k = (s.removeMsg m.number).findMsg k := by unfold State.findMsg; rw [hstore]
  rw [hfind, findMsg_removeMsg h]

/-- A message that no candidate for auto-purge shares its number with is found as it was after any run of purges. -/
theorem findMsg_foldl_autoPurgeOne {ms : List Message} {n : Nat} (h : ∀ m ∈ ms, m.number ≠ n) (s : State) :
    (ms.foldl State.autoPurgeOne s).findMsg n = s.findMsg n := by
  induction ms generalizing s with
  | nil => rfl
  | cons m ms ih =>
    rw [List.foldl_cons, ih fun x hx => h x (List.mem_cons_of_mem m hx), findMsg_autoPurgeOne fun he => h m (by simp) he.symm]

/-- An OPEN message is found as it was after auto-purge, where the messages hold different numbers. -/
theorem findMsg_makeRoom {s t : State} {cond : State → Bool} (h : s.makeRoom cond = some t) (hdistinct : s.numbersDistinct) {m : Message}
    (hm : s.findMsg m.number = some m) (hopen : m.phase = .opened) : t.findMsg m.number = some m := by
  rcases (makeRoom_cases h).2 with rfl | ⟨k, rfl⟩
  · exact hm
  · rw [findMsg_foldl_autoPurgeOne fun x hx hnumber => ?_, hm]
    have hx := (purgeCands_perm s).mem_iff.mp (List.mem_of_mem_take hx)
    obtain ⟨hxs, hclosed⟩ := List.mem_filter.mp hx
    have hxm : x = m := List.inj_on_of_nodup_map hdistinct hxs (findMsg_mem hm) hnumber
    rw [hxm] at hclosed
    simp [Message.isClosed, hopen] at hclosed

/-! ### LODGE PART (R31, R32) -/

theorem length_pickBlocks (n seed : Nat) (free : List Nat) : (pickBlocks n seed free).length = n := by
  induction n generalizing seed free with
  | zero => rfl
  | succ n ih => simp [pickBlocks, ih]

theorem freeBlockList_nodup (s : State) : s.freeBlockList.Nodup := List.Nodup.filter _ List.nodup_range

/-- A served part, in a state that has the open message and the room. -/
theorem lodgePart_served {s u : State} {p : Port} {tag : Byte} {bytes : List Byte} {m : Message} {need : Nat}
    (hfree : s.freeAt p = true) (hlength : fieldLengthOk 0x11 bytes.length = true)
    (hserve : serveLodgePart p bytes s = (u.appendPart p m bytes need).checkLow.answer .ok
      (be16 (m.body.length + bytes.length) ++ be16 (2048 - (m.body.length + bytes.length))
        ++ be32 (min (s.clock + s.storeSet.openTimeout) 4294967295)))
    (hu : u.unpurged = s.unpurged) (hm : u.findMsg m.number = some m) : ∃ t taken, exec (.lodgePart p tag bytes) s = .next t
      ∧ t.findMsg m.number = some { m with body := m.body ++ bytes, chain := m.chain ++ taken }
      ∧ (∀ k, k ≠ m.number → t.findMsg k = u.findMsg k)
      ∧ taken.length = need
      ∧ (need ≤ u.freeBlockList.length → taken.Nodup ∧ ∀ b ∈ taken, b < 2048 ∧ ∀ x ∈ u.store, b ∉ x.chain)
      ∧ t.lodges = s.lodges.set p (some ⟨m.number, min (s.clock + s.storeSet.openTimeout) 4294967295⟩)
      ∧ t.prevLow = t.low ∧ t.status = s.statusIfLow t.low
      ∧ t.behind = { u with
          store := t.store, lodges := t.lodges, prevLow := t.low, status := t.status, picks := t.picks }.behind
      ∧ t.answers s p ⟨0x11, tag, bytes⟩ .ok (be16 (m.body.length + bytes.length) ++ be16 (2048 - (m.body.length + bytes.length))
          ++ be32 (min (s.clock + s.storeSet.openTimeout) 4294967295)) := by
  have field {α : Type} (g : State → α) (hg : ∀ x : State, g x.unpurged = g x) : g u = g s := by rw [← hg u, hu, hg]
  obtain ⟨t, hexec, hbehind, hanswers⟩ := answered_of_serve (i := .lodgePart p tag bytes) rfl hfree rfl
    (mayUse_of_hears (hears_of_freeAt hfree) (kind := 0x11) (by decide)) hlength hserve
    (by rw [checkLow_eq]; exact field State.units fun _ => rfl)
  rw [checkLow_eq] at hbehind
  have hlow : t.low = (u.appendPart p m bytes need).low := (of_behind State.low hbehind :)
  have hfind (k : Nat) : t.findMsg k = (u.appendPart p m bytes need).findMsg k := (of_behind (fun x => x.findMsg k) hbehind :)
  have hpart (k : Nat) : (u.appendPart p m bytes need).findMsg k = _ :=
    State.findMsg_updMsg (s := u) (f := fun x => { x with body := x.body ++ bytes, chain := x.chain ++ pickBlocks need u.picks u.freeBlockList })
      (fun _ => rfl) k
  refine ⟨t, pickBlocks need u.picks u.freeBlockList, hexec, ?_, fun k hk => ?_, length_pickBlocks .., fun hneed => ?_, ?_, ?_, ?_, ?_,
    hanswers⟩
  · rw [hfind, hpart, if_pos rfl, hm]; rfl
  · rw [hfind, hpart, if_neg hk]
  · obtain ⟨-, hnodup, hmem⟩ := pickBlocks_spec need u.picks u.freeBlockList hneed (freeBlockList_nodup u)
    exact ⟨hnodup, fun b hb => mem_freeBlockList.mp (hmem b hb)⟩
  · have hlodges : t.lodges = u.lodges.set p (some ⟨m.number, later u.clock u.storeSet.openTimeout⟩) := (of_behind State.lodges hbehind :)
    rw [hlodges, field State.lodges fun _ => rfl, field State.clock fun _ => rfl, field State.storeSet fun _ => rfl]
    rfl
  · rw [hlow]; exact (of_behind State.prevLow hbehind :)
  · have hstatus : t.status = (u.appendPart p m bytes need).statusIfLow (u.appendPart p m bytes need).low :=
      (of_behind State.status hbehind :)
    have hkeep (b : Bool) : (u.appendPart p m bytes need).statusIfLow b = u.unpurged.statusIfLow b := rfl
    rw [hstatus, hlow, hkeep, hu]; rfl
  · have hstore : t.store = (u.appendPart p m bytes need).store := (of_behind State.store hbehind :)
    have hlodges : t.lodges = (u.appendPart p m bytes need).lodges := (of_behind State.lodges hbehind :)
    have hstatus : t.status = (u.appendPart p m bytes need).statusIfLow (u.appendPart p m bytes need).low :=
      (of_behind State.status hbehind :)
    have hpicks : t.picks = (u.appendPart p m bytes need).picks := (of_behind State.picks hbehind :)
    rw [hbehind, hstore, hlodges, hstatus, hpicks, hlow]
    rfl

/-- The block condition of R12, as a test of the state. -/
theorem blockCondition_eq (prec : Prec) (need : Nat) : blockCondition prec need = fun u : State => need == 0
    || if prec = .life ∨ prec = .priority then decide (need ≤ u.freeBlocks) else decide (need + 128 ≤ u.freeBlocks) := by
  have hreserve : Config.blockReserve = 128 := rfl
  funext u
  simp only [blockCondition, Bool.or_eq_true, beq_iff_eq, hreserve]

/-- Settles O36. -/
theorem lodgePartAppendsToTheBody : Obligations.LodgePartAppendsToTheBody := by
  intro p tag bytes s hfree h1 h48 refused
  have hlength : fieldLengthOk 0x11 bytes.length = true := (fieldLengthOk_lodgePart _).mpr ⟨h1, h48⟩
  have refuse {r : Result} (h : serveLodgePart p bytes s = s.answer r []) : refused r :=
    answered_of_serve (i := .lodgePart p tag bytes) rfl hfree rfl (mayUse_of_hears (hears_of_freeAt hfree) (kind := 0x11) (by decide))
      hlength h rfl
  refine ⟨fun hnone => refuse ?_, ?_⟩
  · simp only [serveLodgePart, lodgedMsg_none hnone]
  · intro l m hl hm total need room deadline served
    have hbody : Config.bodyMax = 2048 := rfl
    have hblock : blockCondition m.prec need = room := blockCondition_eq ..
    have hserve : serveLodgePart p bytes s = if 2048 < total then s.answer .tooLong
        else match s.makeRoom room with
          | none => s.answer .full
          | some t => (t.appendPart p m bytes need).checkLow.answer .ok (be16 total ++ be16 (2048 - total) ++ be32 deadline) := by
      rw [← hblock]
      simp only [serveLodgePart, lodgedMsg_some hl, hm] <;> rfl
    have hmnumber : s.findMsg m.number = some m := by rw [findMsg_number hm, hm]
    refine ⟨fun hlong => refuse ?_, fun hshort hno => refuse ?_, fun hshort hroom => ?_, fun hshort hopen hdistinct u hu => ?_⟩
    · rw [hserve, if_pos hlong]
    · rw [hserve, if_neg (by omega), hno]
    · rw [if_neg (by omega), State.makeRoom, if_pos hroom] at hserve
      exact lodgePart_served hfree hlength hserve rfl hmnumber
    · rw [if_neg (by omega), hu] at hserve
      exact lodgePart_served hfree hlength hserve (makeRoom_unpurged hu) (findMsg_makeRoom hu hdistinct hmnumber hopen)

end Sys2Proof.Machine
end

section
/-! PROOF. LODGE CLOSE, LODGE DROP and the open timeout (R33 to R37). -/
namespace Sys2Proof.Machine

/-! ### Words (R33) -/

/-- The words of a body are the runs that its separators leave; a word that runs is counted at its start. -/
theorem countWords_eq (body : List Byte) :
    countWords false body = ((body.splitOnP isSeparator).filter fun w => !w.isEmpty).length
      ∧ countWords true body = ((body.splitOnP isSeparator).tail.filter fun w => !w.isEmpty).length := by
  induction body with
  | nil => exact ⟨rfl, rfl⟩
  | cons b bs ih =>
    obtain ⟨hfresh, hrunning⟩ := ih
    obtain ⟨w, ws, hsplit⟩ := List.exists_cons_of_ne_nil (List.splitOnP_ne_nil isSeparator bs)
    rw [hsplit] at hfresh hrunning
    by_cases hb : isSeparator b = true
    · simp [countWords, hb, List.splitOnP_cons, hsplit, hfresh]
    · simp [countWords, hb, List.splitOnP_cons, hsplit, hrunning]
      omega

theorem wordCount_eq (body : List Byte) : wordCount body = min 999 (wordsOf body).length := by
  rw [wordCount, (countWords_eq body).1]; rfl

/-! ### Raises, port by port (R169) -/

theorem raiseWhere_status_get (s : State) (k : EventKind) (who : Port → Bool) (q : Port) :
    (s.raiseWhere k who).status.get q
      = s.status.get q ||| if who q then eventBit k &&& routedSet (s.roles.get q) else 0 := by
  simp only [State.raiseWhere, PerPort.get_build]
  split <;> simp

theorem raiseAllIf_status_get (s : State) (b : Bool) (k : EventKind) (q : Port) :
    (s.raiseAllIf b k).status.get q = s.status.get q ||| if b then eventBit k &&& routedSet (s.roles.get q) else 0 := by
  cases b
  · simp [State.raiseAllIf]
  · simp [State.raiseAllIf, State.raiseAll, raiseWhere_status_get]

theorem raiseConsolesIf_status_get (s : State) (b : Bool) (k : EventKind) (q : Port) :
    (s.raiseConsolesIf b k).status.get q
      = s.status.get q ||| if b && s.isConsole q then eventBit k &&& routedSet (s.roles.get q) else 0 := by
  cases b
  · simp [State.raiseConsolesIf]
  · exact raiseWhere_status_get s k s.isConsole q

/-! ### LODGE CLOSE (R34, R35) -/

/-- The state with the book and the status sets left out of account. -/
def State.bare (s : State) : State := { s with book := [], status := .same 0 }

theorem bare_ext {s t : State} (h : t.bare = s.bare) : t = { s with book := t.book, status := t.status } := by
  cases s; cases t; simp only [State.bare, State.mk.injEq] at h ⊢; simp_all

theorem raiseAllIf_bare (s : State) (b : Bool) (k : EventKind) : (s.raiseAllIf b k).bare = s.bare := by cases b <;> rfl
theorem raiseConsolesIf_bare (s : State) (b : Bool) (k : EventKind) : (s.raiseConsolesIf b k).bare = s.bare := by cases b <;> rfl

/-- The stations' counts gone up, and then the filing's own fields. -/
def State.filedBefore (s : State) (p : Port) (m : Message) : State :=
  { ((s.filedCopies m).foldl (fun u c => u.updStation c.station (Station.recount false true))
      (s.updMsg m.number fun x => { x with phase := .filed (s.filingFor m), copies := s.filedCopies m })) with
    filingCount := (s.filingFor m).sequence
    lodges := s.lodges.set p none
    totals := { s.totals with lodged := bump s.totals.lodged } }

theorem foldl_updStation_eq (copies : List Copy) (f : Copy → Station → Station) (s : State) :
    copies.foldl (fun t c => t.updStation c.station (f c)) s
      = { s with book := (copies.foldl (fun t c => t.updStation c.station (f c)) s).book } :=
  bookless_ext (updStations_bookless copies f s)

theorem fileMsg_eq_raises (s : State) (p : Port) (m : Message) : s.fileMsg p m =
    (((s.filedBefore p m).raiseAllIf (m.prec == .life) .lifeFiled).raiseAllIf ((s.filedCopies m).any Copy.isLocal)
      .localWaiting).raiseConsolesIf (s.filingFor m).checkDiffers .checkDiffers := by
  have hfold := foldl_updStation_eq (s.filedCopies m) (fun _ => Station.recount false true)
    (s.updMsg m.number fun x => { x with phase := .filed (s.filingFor m), copies := s.filedCopies m })
  unfold State.fileMsg State.filedBefore
  dsimp only
  rw [hfold]
  rfl

theorem filedBefore_bare (s : State) (p : Port) (m : Message) : (s.filedBefore p m).bare = { s with
    store := (s.updMsg m.number fun x => { x with phase := .filed (s.filingFor m), copies := s.filedCopies m }).store
    filingCount := (s.filingFor m).sequence, lodges := s.lodges.set p none
    totals := { s.totals with lodged := bump s.totals.lodged } }.bare := by
  unfold State.filedBefore
  rw [foldl_updStation_eq]
  rfl

/-- A filing, but for what it does to the book and the status sets. -/
theorem fileMsg_eq (s : State) (p : Port) (m : Message) : s.fileMsg p m = { s with
    store := (s.updMsg m.number fun x => { x with phase := .filed (s.filingFor m), copies := s.filedCopies m }).store
    filingCount := (s.filingFor m).sequence, lodges := s.lodges.set p none
    totals := { s.totals with lodged := bump s.totals.lodged }
    book := (s.fileMsg p m).book, status := (s.fileMsg p m).status } := by
  have hbare := (congrArg State.bare (fileMsg_eq_raises s p m)).trans
    (((raiseConsolesIf_bare ..).trans ((raiseAllIf_bare ..).trans (raiseAllIf_bare ..))).trans (filedBefore_bare s p m))
  exact bare_ext hbare

/-- The waiting counts gone up, for each copy that a list of copies holds for them. -/
theorem station_raiseAll (copies : List Copy) (s : State) (e : Nat) :
    (copies.foldl (fun t c => t.updStation c.station (Station.recount false true)) s).station e
      = (s.station e).map fun st => { st with waiting := st.waiting + copies.countP fun c => c.station == e } := by
  induction copies generalizing s with
  | nil => cases h : s.station e <;> simp [h]
  | cons c cs ih =>
    rw [List.foldl_cons, ih, State.station_updStation]
    by_cases he : e = c.station
    · subst he
      cases s.station c.station with
      | none => simp
      | some st =>
        simp [Station.recount, List.countP_cons]
        omega
    · have hne : ¬ c.station = e := fun h => he h.symm
      simp [he, hne, List.countP_cons]

theorem fileMsg_book (s : State) (p : Port) (m : Message) : (s.fileMsg p m).book = (s.filedBefore p m).book := by
  rw [fileMsg_eq_raises]
  simp only [State.raiseConsolesIf_book, State.raiseAllIf_book]

theorem station_fileMsg (s : State) (p : Port) (m : Message) (e : Nat) : (s.fileMsg p m).station e
    = (s.station e).map fun st => { st with waiting := st.waiting + m.copies.countP fun c => c.station == e } := by
  have hcount : (s.filedCopies m).countP (fun c => c.station == e) = m.copies.countP fun c => c.station == e := by
    rw [State.filedCopies, List.countP_map]; rfl
  rw [← hcount]
  unfold State.station
  rw [fileMsg_book]
  exact station_raiseAll (s.filedCopies m) _ e

theorem fileMsg_status_get (s : State) (p : Port) (m : Message) (q : Port) : (s.fileMsg p m).status.get q = s.status.get q
    ||| (if m.prec = Prec.life ∧ s.roles.get q ≠ Role.off then eventBit .lifeFiled else 0)
    ||| (if (∃ c ∈ m.copies, c.station = 0) ∧ (s.roles.get q = Role.console ∨ s.roles.get q = Role.intake) then eventBit .localWaiting
      else 0)
    ||| (if (s.filingFor m).checkDiffers = true ∧ s.roles.get q = Role.console then eventBit .checkDiffers else 0) := by
  have hlocal : (s.filedCopies m).any Copy.isLocal = true ↔ ∃ c ∈ m.copies, c.station = 0 := by
    simp [State.filedCopies, Copy.isLocal]
  have hbefore : (s.filedBefore p m).status = s.status ∧ (s.filedBefore p m).roles = s.roles := by
    unfold State.filedBefore; rw [foldl_updStation_eq]; exact ⟨rfl, rfl⟩
  rw [fileMsg_eq_raises, raiseConsolesIf_status_get, raiseAllIf_status_get, raiseAllIf_status_get, hbefore.1]
  simp only [State.isConsole, State.raiseAllIf_roles, hbefore.2]
  congr 1
  · congr 1
    · congr 1
      cases m.prec <;> cases s.roles.get q <;> decide
    · by_cases h : ∃ c ∈ m.copies, c.station = 0
      · rw [if_pos (hlocal.mpr h)]
        cases s.roles.get q <;> simp [h] <;> decide
      · rw [if_neg (mt hlocal.mp h), if_neg fun h' => h h'.1]
  · cases (s.filingFor m).checkDiffers <;> cases s.roles.get q <;> decide

/-- Settles O38. -/
theorem lodgeCloseFilesTheMessage : Obligations.LodgeCloseFilesTheMessage := by
  intro p tag s hfree
  have hrole : mayUse (s.roles.get p) 0x12 = true := mayUse_of_hears (hears_of_freeAt hfree) (by decide)
  refine ⟨fun hnone => ?_, ?_⟩
  · have hserve : serveLodgeClose p s = s.answer .noOpen [] := by simp only [serveLodgeClose, lodgedMsg_none hnone]
    exact answered_of_serve (i := .lodgeClose p tag) rfl hfree rfl hrole rfl hserve rfl
  · intro l m hl hm words differs sequence copies
    have hfiling : s.filingFor m = ⟨words, decide differs, s.clock, sequence⟩ := by
      have hdiffers : (m.wordCheck != 0 && m.wordCheck != words) = decide differs := by
        by_cases h0 : m.wordCheck = 0 <;> by_cases hw : m.wordCheck = words <;> simp [differs, h0, hw]
      simp only [State.filingFor, wordCount_eq]
      rw [hdiffers]
    have hserve : serveLodgeClose p s = (s.fileMsg p m).answer .ok (be16 m.number ++ be16 words ++ be16 m.wordCheck
        ++ be8 (if differs then 1 else 0) ++ be32 sequence ++ be32 s.clock
        ++ be8 (copies.countP fun c => match c.state with | some (.heldFor ..) => true | _ => false)) := by
      have hflag : beFlag (decide differs) = be8 (if differs then 1 else 0) := by
        by_cases h : differs <;> simp [beFlag, h]
      simp only [serveLodgeClose, lodgedMsg_some hl, hm, hfiling, hflag]
      rfl
    obtain ⟨t, hexec, hbehind, hanswers⟩ := answered_of_serve (i := .lodgeClose p tag) rfl hfree rfl hrole rfl hserve
      (by rw [fileMsg_eq])
    have hmnumber : s.findMsg m.number = some m := by rw [findMsg_number hm, hm]
    have hfind (k : Nat) : t.findMsg k = if k = m.number then
        (s.findMsg m.number).map fun x => { x with phase := .filed (s.filingFor m), copies := s.filedCopies m } else s.findMsg k := by
      have hstore : (s.fileMsg p m).store
          = (s.updMsg m.number fun x => { x with phase := .filed (s.filingFor m), copies := s.filedCopies m }).store := by
        rw [fileMsg_eq]
      have ht : t.findMsg k
          = (s.updMsg m.number fun x => { x with phase := .filed (s.filingFor m), copies := s.filedCopies m }).findMsg k := by
        rw [show t.findMsg k = (s.fileMsg p m).findMsg k from (of_behind (fun x => x.findMsg k) hbehind :)]
        unfold State.findMsg
        rw [hstore]
      rw [ht]
      exact State.findMsg_updMsg (f := fun x => { x with phase := .filed (s.filingFor m), copies := s.filedCopies m }) (fun _ => rfl) k
    have hstore : t.store = (s.fileMsg p m).store := (of_behind State.store hbehind :)
    have hbook : t.book = (s.fileMsg p m).book := (of_behind State.book hbehind :)
    have hstatus : t.status = (s.fileMsg p m).status := (of_behind State.status hbehind :)
    have hlodges : t.lodges = s.lodges.set p none := by
      rw [show t.lodges = (s.fileMsg p m).lodges from (of_behind State.lodges hbehind :), fileMsg_eq]
    have hcount : t.filingCount = sequence := by
      rw [show t.filingCount = (s.fileMsg p m).filingCount from (of_behind State.filingCount hbehind :), fileMsg_eq, hfiling]
    have htotals : t.totals = { s.totals with lodged := min (s.totals.lodged + 1) 65535 } := by
      rw [show t.totals = (s.fileMsg p m).totals from (of_behind State.totals hbehind :), fileMsg_eq]
      rfl
    refine ⟨t, hexec, ?_, fun k hk => by rw [hfind, if_neg hk], hcount, hlodges, fun e => ?_, htotals, fun q => ?_, ?_, hanswers⟩
    · rw [hfind, if_pos rfl, hmnumber, hfiling]; rfl
    · rw [show t.station e = (s.fileMsg p m).station e from (of_behind (fun x => x.station e) hbehind :), station_fileMsg]
    · rw [hstatus, fileMsg_status_get, hfiling]
      simp only [decide_eq_true_eq]
    · have hfiled : (s.fileMsg p m).store
          = (s.updMsg m.number fun x => { x with phase := .filed (s.filingFor m), copies := s.filedCopies m }).store := by
        rw [fileMsg_eq]
      rw [hbehind, hstore, hlodges, hbook, hstatus, htotals, hfiled]
      exact congrArg State.behind (fileMsg_eq s p m)

/-! ### LODGE DROP and the open timeout (R36, R37) -/

theorem freeBlocks_removeMsg (s : State) (n : Nat) : s.freeBlocks ≤ (s.removeMsg n).freeBlocks := by
  have hsum : ((s.store.filter fun m => m.number != n).map fun m => m.chain.length).sum
      ≤ (s.store.map fun m => m.chain.length).sum := (List.filter_sublist.map _).sum_le_sum fun _ _ => Nat.zero_le _
  exact Nat.sub_le_sub_left hsum _

theorem freeSlots_removeMsg (s : State) (n : Nat) : s.freeSlots ≤ (s.removeMsg n).freeSlots :=
  Nat.sub_le_sub_left (List.length_filter_le ..) _

/-- A message that goes makes no store low. -/
theorem low_of_low_removeMsg {s : State} {n : Nat} (h : (s.removeMsg n).low = true) : s.low = true := by
  simp only [State.low, Bool.or_eq_true, decide_eq_true_eq] at h ⊢
  exact h.imp (le_trans (freeSlots_removeMsg s n)) (le_trans (freeBlocks_removeMsg s n))

/-- Where the store does not become low, no status set changes. -/
theorem statusIfLow_eq {s : State} {low : Bool} (h : low = true → s.prevLow = true) : s.statusIfLow low = s.status := by
  rw [State.statusIfLow, if_neg]
  simp only [Bool.and_eq_true, Bool.not_eq_true', not_and, Bool.not_eq_false]
  exact h

/-- Settles O39. -/
theorem dropAndTimeoutRemoveTheOpenMessage : Obligations.DropAndTimeoutRemoveTheOpenMessage := by
  intro p tag s
  refine ⟨fun hfree hnone => ?_, ?_⟩
  · have hrole : mayUse (s.roles.get p) 0x13 = true := mayUse_of_hears (hears_of_freeAt hfree) (by decide)
    have hserve : serveLodgeDrop p s = s.answer .noOpen [] := by simp only [serveLodgeDrop, lodgedMsg_none hnone]
    exact answered_of_serve (i := .lodgeDrop p tag) rfl hfree rfl hrole rfl hserve rfl
  · intro l m hl hm hprev gone
    have hlow : gone.low = true → s.prevLow = true := fun h => by
      rw [hprev]
      exact low_of_low_removeMsg (n := m.number) h
    have hdrop : (s.dropLodge p m) = gone := rfl
    refine ⟨fun hfree => ?_, fun hears hdue => ?_, fun hears hlater => ?_⟩
    · have hrole : mayUse (s.roles.get p) 0x13 = true := mayUse_of_hears (hears_of_freeAt hfree) (by decide)
      have hserve : serveLodgeDrop p s = State.answer { gone with prevLow := gone.low } .ok (be16 m.number) := by
        simp only [serveLodgeDrop, lodgedMsg_some hl, hm, hdrop]
        rw [checkLow_eq, statusIfLow_eq (s := gone) hlow]
      exact answered_of_serve (i := .lodgeDrop p tag) rfl hfree rfl hrole rfl hserve rfl
    · have hexec : exec (.openTimeoutExpiry p) s = .next (s.expireOpen p).finish :=
        exec_event (f := fun t => t.expireOpen p) rfl (inService_of_hears hears)
      have hraise : (gone.raiseWhere .openExpired fun q => q == p || s.isConsole q)
          = { gone with status := s.statusAt .openExpired fun q => q == p || s.isConsole q } := by
        rw [State.raiseWhere_frame, State.raiseWhere_statusAt]
        · rfl
        · intro q hq
          have hoff : s.roles.get q ≠ .off := by
            rcases Bool.or_eq_true_iff.mp hq with h | h
            · rw [beq_iff_eq.mp h]; exact PortUnit.role_ne_off_of_hears hears
            · rw [show s.roles.get q = .console from by simpa [State.isConsole] using h]; decide
          show eventBit .openExpired &&& routedSet (s.roles.get q) = _
          cases hr : s.roles.get q with
          | off => exact absurd hr hoff
          | console | intake | channel => decide
      have hexpire : s.expireOpen p = { gone with
          prevLow := gone.low, status := s.statusAt .openExpired fun q => q == p || s.roles.get q == Role.console } := by
        simp only [State.expireOpen, hl, lodgedMsg_some hl, hm, if_pos hdue, hdrop]
        rw [hraise, checkLow_eq, statusIfLow_eq]
        · rfl
        · exact hlow
      rw [hexpire] at hexec
      exact ⟨_, hexec, State.finish_follows rfl, State.finish_behind _⟩
    · have hexec : exec (.openTimeoutExpiry p) s = .next (s.expireOpen p).finish :=
        exec_event (f := fun t => t.expireOpen p) rfl (inService_of_hears hears)
      have hexpire : s.expireOpen p = s := by
        simp only [State.expireOpen, hl, lodgedMsg_some hl, hm, if_neg (not_le.mpr hlater)]
      rw [hexpire] at hexec
      exact ⟨_, hexec, State.finish_follows rfl, State.finish_behind _⟩

end Sys2Proof.Machine
end

section
/-! PROOF. LODGE OPEN: call signs, the form of its fields, and the resolution of its addressees (R24 to R26, R45, R49). -/
namespace Sys2Proof.Machine

/-! ### Call signs (R45) -/

theorem isCallByte_iff {b : Byte} : isCallByte b = true ↔
    0x41 ≤ b.toNat ∧ b.toNat ≤ 0x5A ∨ 0x30 ≤ b.toNat ∧ b.toNat ≤ 0x39 ∨ b = 0x2F := by
  simp only [isCallByte, Bool.or_eq_true, Bool.and_eq_true, decide_eq_true_eq, beq_iff_eq, or_assoc]

theorem isCallByte_ne_space {b : Byte} (h : isCallByte b = true) : b ≠ 0x20 := by
  rintro rfl; exact absurd h (by decide)

/-- A list is its characters up to the first space and spaces behind them, in one way. -/
theorem takeWhile_spaces {chars : List Byte} (h : ∀ b ∈ chars, b ≠ 0x20) (n : Nat) :
    (chars ++ List.replicate n 0x20).takeWhile (· != 0x20) = chars := by
  rw [List.takeWhile_append_of_pos (by simpa using h)]
  cases n <;> simp [List.replicate_succ]

/-- A field is a valid call sign as R45 says. -/
theorem callOf_eq_some_iff (field : List Byte) (c : Call) : callOf field = some c ↔
    field.length = 7 ∧ c = field.map foldByte
    ∧ ∃ chars : List Byte, c = chars ++ List.replicate (7 - chars.length) 0x20 ∧ 3 ≤ chars.length ∧ chars.length ≤ 7
      ∧ (∀ b ∈ chars, isCallByte b = true) ∧ chars.head? ≠ some 0x2F ∧ chars.getLast? ≠ some 0x2F := by
  unfold callOf
  dsimp only
  rw [Option.ite_none_right_eq_some, List.length_map]
  constructor
  · rintro ⟨⟨hlen, h3, hspaces, hcall, hhead, hlast⟩, hc⟩
    cases hc
    refine ⟨hlen, rfl, _, ?_, h3, ?_, fun b hb => List.all_eq_true.mp hcall b hb, hhead, hlast⟩
    · conv_lhs => rw [← List.takeWhile_append_dropWhile (p := (· != 0x20)) (l := field.map foldByte)]
      congr 1
      have hdrop : (field.map foldByte).drop ((field.map foldByte).takeWhile (· != 0x20)).length
          = (field.map foldByte).dropWhile (· != 0x20) := by
        have hwhole := List.takeWhile_append_dropWhile (p := (· != 0x20)) (l := field.map foldByte)
        calc (field.map foldByte).drop ((field.map foldByte).takeWhile (· != 0x20)).length
            = ((field.map foldByte).takeWhile (· != 0x20) ++ (field.map foldByte).dropWhile (· != 0x20)).drop
                ((field.map foldByte).takeWhile (· != 0x20)).length := by rw [hwhole]
          _ = _ := List.drop_left' rfl
      rw [hdrop] at hspaces
      refine List.eq_replicate_iff.mpr ⟨?_, fun b hb => by simpa using List.all_eq_true.mp hspaces b hb⟩
      have := congrArg List.length (List.takeWhile_append_dropWhile (p := (· != 0x20)) (l := field.map foldByte))
      rw [List.length_append, List.length_map, hlen] at this
      omega
    · calc _ ≤ (field.map foldByte).length := (List.takeWhile_sublist _).length_le
        _ = 7 := by rw [List.length_map, hlen]
  · rintro ⟨hlen, rfl, chars, hc, h3, h7, hcall, hhead, hlast⟩
    have htake : (field.map foldByte).takeWhile (· != 0x20) = chars := by
      rw [hc]; exact takeWhile_spaces (fun b hb => isCallByte_ne_space (hcall b hb)) _
    refine ⟨⟨hlen, by rw [htake]; exact h3, ?_, by rw [htake]; exact List.all_eq_true.mpr hcall, by rw [htake]; exact hhead,
      by rw [htake]; exact hlast⟩, rfl⟩
    rw [htake, hc, List.drop_left' rfl]
    simp

/-! ### The form of LODGE OPEN (R24, R25) -/

theorem collapse_filter (p : Call → Bool) (l : List Call) : (collapse l).filter p = collapse (l.filter p) := by
  induction l with
  | nil => rfl
  | cons d ds ih =>
    by_cases hp : p d = true
    · rw [List.filter_cons_of_pos hp, collapse, collapse, List.filter_cons_of_pos hp, ← ih, List.filter_filter, List.filter_filter]
      simp only [Bool.and_comm]
    · rw [List.filter_cons_of_neg hp, collapse, List.filter_cons_of_neg hp, List.filter_filter, ← ih]
      refine List.filter_congr fun x _ => ?_
      by_cases hx : x = d
      · simp [hx, hp]
      · simp [hx]

/-- The addressees are kept once each, at the place of their first appearance. -/
theorem collapse_eq_eraseDups (l : List Call) : collapse l = l.eraseDups := by
  induction hn : l.length using Nat.strong_induction_on generalizing l with
  | _ n ih =>
    cases l with
    | nil => rfl
    | cons c cs =>
      rw [collapse, collapse_filter, List.eraseDups_cons]
      have hlt : (cs.filter (· != c)).length < n := by
        rw [← hn, List.length_cons]; exact Nat.lt_succ_of_le (List.length_filter_le ..)
      rw [ih _ hlt _ rfl]
      rfl

theorem callsOf_eq_some_iff {fs : List (List Byte)} {cs : List Call} :
    callsOf fs = some cs ↔ (∀ a ∈ fs, callOf a ≠ none) ∧ cs = fs.filterMap callOf := by
  induction fs generalizing cs with
  | nil => simp [callsOf, eq_comm]
  | cons f fs ih =>
    unfold callsOf
    cases hf : callOf f with
    | none => simp [hf]
    | some c =>
      cases hfs : callsOf fs with
      | none =>
        have hno : ¬ ∀ a ∈ fs, callOf a ≠ none := fun hall => by
          rw [ih.mpr ⟨hall, rfl⟩] at hfs; cases hfs
        simp only [List.mem_cons, forall_eq_or_imp, hf]
        exact ⟨fun h => (nomatch h), fun h => absurd h.1.2 hno⟩
      | some ds =>
        obtain ⟨hall, rfl⟩ := ih.mp hfs
        simp only [List.mem_cons, forall_eq_or_imp, hf, List.filterMap_cons, Option.some.injEq]
        exact ⟨fun h => ⟨⟨by simp, hall⟩, h.symm⟩, fun h => h.2.symm⟩

theorem callsOf_eq_none_iff {fs : List (List Byte)} : callsOf fs = none ↔ ∃ a ∈ fs, callOf a = none := by
  rw [Option.eq_none_iff_forall_not_mem]
  constructor
  · intro h
    by_contra hno
    exact h _ (callsOf_eq_some_iff.mpr ⟨fun a ha hnone => hno ⟨a, ha, hnone⟩, rfl⟩)
  · rintro ⟨a, ha, hnone⟩ cs hcs
    exact (callsOf_eq_some_iff.mp hcs).1 a ha hnone

theorem length_callsOf {fs : List (List Byte)} {cs : List Call} (h : callsOf fs = some cs) : cs.length = fs.length := by
  induction fs generalizing cs with
  | nil => cases h; rfl
  | cons f fs ih =>
    unfold callsOf at h
    split at h
    next hfs => cases h; rw [List.length_cons, List.length_cons, ih hfs]
    next => cases h

theorem precOf_isSome {b : Byte} (h : b.toNat ≤ 3) : ∃ pr, precOf b = some pr := by
  rw [precOf_eq]; exact ⟨_, List.getElem?_eq_getElem (show b.toNat < 4 by omega)⟩

theorem precOf_eq_none {b : Byte} (h : 3 < b.toNat) : precOf b = none := by
  rw [precOf_eq]; exact List.getElem?_eq_none_iff.mpr (show 4 ≤ b.toNat by omega)

theorem precCode_of_precOf {b : Byte} {pr : Prec} (h : precOf b = some pr) : precCode pr = b.toNat := by
  have key : ∀ b : Byte, ∀ pr, precOf b = some pr → precCode pr = b.toNat := by decide
  exact key b pr h

/-- The fields of a LODGE OPEN whose precedence and addressees are valid. -/
theorem openFields_eq {prec : Byte} {origin : List Byte} {serial check : Half} {addressees : List (List Byte)} {pr : Prec}
    {calls : List Call} (hprec : precOf prec = some pr) (hcalls : callsOf addressees = some calls) :
    openFields prec origin serial check addressees =
      if 999 < check.toNat ∨ addressees = [] ∨ 8 < addressees.length then none
      else if origin = List.replicate 7 0x20 then some ⟨pr, none, serial.toNat, check.toNat, collapse calls⟩
      else (callOf origin).map fun o => ⟨pr, some o, serial.toNat, check.toNat, collapse calls⟩ := by
  simp only [openFields, hprec, hcalls, Bool.or_eq_true, decide_eq_true_eq, isBlankCall_iff, length_callsOf hcalls, or_assoc]
  refine if_congr (or_congr_right (or_congr_left ?_)) rfl rfl
  rw [List.isEmpty_iff, ← List.length_eq_zero_iff, length_callsOf hcalls, List.length_eq_zero_iff]

theorem openFields_eq_none_iff (prec : Byte) (origin : List Byte) (serial check : Half) (addressees : List (List Byte)) :
    openFields prec origin serial check addressees = none ↔
      3 < prec.toNat ∨ origin ≠ List.replicate 7 0x20 ∧ callOf origin = none ∨ 999 < check.toNat
      ∨ addressees = [] ∨ 8 < addressees.length ∨ ∃ a ∈ addressees, callOf a = none := by
  by_cases hprec : 3 < prec.toNat
  · simp [openFields, precOf_eq_none hprec, hprec]
  · obtain ⟨pr, hpr⟩ := precOf_isSome (not_lt.mp hprec)
    cases hcalls : callsOf addressees with
    | none => simp [openFields, hpr, hcalls, callsOf_eq_none_iff.mp hcalls]
    | some calls =>
      have hvalid : ¬ ∃ a ∈ addressees, callOf a = none := fun h => by rw [callsOf_eq_none_iff.mpr h] at hcalls; cases hcalls
      rw [openFields_eq hpr hcalls]
      simp only [hprec, hvalid, or_false, false_or]
      by_cases hform : 999 < check.toNat ∨ addressees = [] ∨ 8 < addressees.length
      · simp [hform]
      · by_cases hblank : origin = List.replicate 7 0x20
        · simp only [if_neg hform, if_pos hblank, hform, or_false, hblank]; simp
        · rw [if_neg hform, if_neg hblank, Option.map_eq_none_iff]
          exact ⟨fun h => .inl ⟨hblank, h⟩, fun h => h.elim And.right fun h => absurd h hform⟩

theorem openFields_eq_some {prec : Byte} {origin : List Byte} {serial check : Half} {addressees : List (List Byte)} {f : OpenFields}
    (h : openFields prec origin serial check addressees = some f) :
    precCode f.prec = prec.toNat ∧ f.serial = serial.toNat ∧ f.check = check.toNat
      ∧ f.origin = (if origin = List.replicate 7 0x20 then none else callOf origin)
      ∧ f.calls = (addressees.filterMap callOf).eraseDups := by
  cases hpr : precOf prec with
  | none => simp [openFields, hpr] at h
  | some pr =>
    cases hcalls : callsOf addressees with
    | none => simp [openFields, hpr, hcalls] at h
    | some calls =>
      have hcollapse : collapse calls = (addressees.filterMap callOf).eraseDups := by
        rw [collapse_eq_eraseDups, (callsOf_eq_some_iff.mp hcalls).2]
      rw [openFields_eq hpr hcalls] at h
      split at h
      · cases h
      · split at h
        next hblank =>
          cases h
          exact ⟨precCode_of_precOf hpr, rfl, rfl, by rw [if_pos hblank], hcollapse⟩
        next hblank =>
          obtain ⟨o, ho, rfl⟩ := Option.map_eq_some_iff.mp h
          exact ⟨precCode_of_precOf hpr, rfl, rfl, by rw [if_neg hblank, ho], hcollapse⟩

/-! ### The resolution of addressees (R26, R49) -/

/-- The book with the entries of some resolved addressees written. -/
def bookAfter (now : Nat) (book : List (Option Station)) (rs : List Resolved) : List (Option Station) :=
  rs.foldl (fun b r => if r.made then b.set r.entry (some (newStation r.call .auto now)) else b) book

theorem writeResolved_clock (s : State) (rs : List Resolved) : (s.writeResolved rs).clock = s.clock :=
  congrArg (fun x => x.2.2.2.2.1) (s.writeResolved_fixed rs)

theorem writeResolved_book (s : State) (rs : List Resolved) : (s.writeResolved rs).book = bookAfter s.clock s.book rs := by
  induction rs generalizing s with
  | nil => rfl
  | cons r rs ih =>
    have hcons : s.writeResolved (r :: rs)
        = (if r.made then s.writeEntry r.entry r.recycled (newStation r.call .auto s.clock) else s).writeResolved rs := rfl
    rw [hcons, ih, bookAfter, bookAfter, List.foldl_cons]
    cases r.made
    · rfl
    · simp only [if_true, writeEntry_eq]

/-- An addressee resolved over a book, with the entries that earlier addressees have. -/
def Resolved.over (book : List (Option Station)) (isNamed : Nat → Bool) (busy : List Nat) (r : Resolved) : Prop :=
  if r.made then findCall book r.call = none ∧ provideEntry book isNamed busy = some (r.entry, r.recycled)
  else findCall book r.call = some r.entry ∧ r.recycled = false

theorem provideEntry_congr {book : List (Option Station)} {isNamed : Nat → Bool} {busy busy' : List Nat}
    (h : ∀ e, e ∈ busy ↔ e ∈ busy') : provideEntry book isNamed busy = provideEntry book isNamed busy' := by
  have hcontains (e : Nat) : busy.contains e = busy'.contains e := by
    rw [Bool.eq_iff_iff, List.contains_iff_mem, List.contains_iff_mem, h]
  rw [provideEntry_eq, provideEntry_eq]
  simp only [recyclable, hcontains]

theorem over_congr {book : List (Option Station)} {isNamed : Nat → Bool} {busy busy' : List Nat} (h : ∀ e, e ∈ busy ↔ e ∈ busy')
    (r : Resolved) : r.over book isNamed busy ↔ r.over book isNamed busy' := by
  unfold Resolved.over; rw [provideEntry_congr h]

/-- The first addressee is resolved over the book as it stands, and the others over what it leaves. -/
theorem resolveAll_cons_iff {isNamed : Nat → Bool} {now : Nat} {c : Call} {cs : List Call} {book : List (Option Station)}
    {busy : List Nat} {rs : List Resolved} : resolveAll isNamed now (c :: cs) book busy = some rs ↔
    ∃ r rs', rs = r :: rs' ∧ r.call = c ∧ r.over book isNamed busy
      ∧ resolveAll isNamed now cs (bookAfter now book [r]) (r.entry :: busy) = some rs' := by
  conv_lhs => unfold resolveAll
  cases hfind : findCall book c with
  | some e =>
    simp only [Option.map_eq_some_iff]
    constructor
    · rintro ⟨rs', h, rfl⟩
      exact ⟨⟨c, e, false, false⟩, rs', rfl, rfl, ⟨hfind, rfl⟩, h⟩
    · rintro ⟨⟨c', e', made, recycled⟩, rs', rfl, rfl, hover, h⟩
      cases made with
      | true => exact absurd (hover : _ ∧ _).1 (by simp [hfind])
      | false =>
        obtain ⟨he, hrec⟩ : findCall book c' = some e' ∧ recycled = false := hover
        rw [hfind] at he
        cases he
        cases hrec
        exact ⟨rs', h, rfl⟩
  | none =>
    cases hprovide : provideEntry book isNamed busy with
    | none =>
      refine ⟨fun h => (nomatch h), ?_⟩
      rintro ⟨⟨c', e', made, recycled⟩, rs', rfl, rfl, hover, -⟩
      cases made with
      | true => exact absurd (hover : _ ∧ _).2 (by simp [hprovide])
      | false => exact absurd (hover : _ ∧ _).1 (by simp [hfind])
    | some x =>
      obtain ⟨e, recycled⟩ := x
      simp only [Option.map_eq_some_iff]
      constructor
      · rintro ⟨rs', h, rfl⟩
        exact ⟨⟨c, e, true, recycled⟩, rs', rfl, rfl, ⟨hfind, hprovide⟩, h⟩
      · rintro ⟨⟨c', e', made, recycled'⟩, rs', rfl, rfl, hover, h⟩
        cases made with
        | false => exact absurd (hover : _ ∧ _).1 (by simp [hfind])
        | true =>
          obtain ⟨-, he⟩ : findCall book c' = none ∧ provideEntry book isNamed busy = some (e', recycled') := hover
          rw [hprovide] at he
          cases he
          exact ⟨rs', h, rfl⟩

/-- Every addressee is resolved over the book that the earlier ones left. -/
theorem resolveAll_eq_some_iff {isNamed : Nat → Bool} {now : Nat} {cs : List Call} {book : List (Option Station)} {busy : List Nat}
    {rs : List Resolved} : resolveAll isNamed now cs book busy = some rs ↔ rs.map Resolved.call = cs
      ∧ ∀ (k : Nat) (r : Resolved), rs[k]? = some r → r.over (bookAfter now book (rs.take k)) isNamed ((rs.take k).map Resolved.entry ++ busy) := by
  induction cs generalizing book busy rs with
  | nil =>
    rw [resolveAll, Option.some.injEq, List.map_eq_nil_iff]
    constructor
    · rintro rfl; exact ⟨rfl, fun k r h => by simp at h⟩
    · exact fun h => h.1.symm
  | cons c cs ih =>
    rw [resolveAll_cons_iff]
    have hbusy (r : Resolved) (l : List Resolved) (e : Nat) :
        e ∈ l.map Resolved.entry ++ r.entry :: busy ↔ e ∈ (r :: l).map Resolved.entry ++ busy := by
      simp only [List.mem_append, List.mem_cons, List.map_cons, List.cons_append]; tauto
    constructor
    · rintro ⟨r, rs', rfl, rfl, hover, hrest⟩
      obtain ⟨rfl, hall⟩ := ih.mp hrest
      refine ⟨rfl, fun k r' hk => ?_⟩
      cases k with
      | zero => cases hk; exact hover
      | succ k => exact (over_congr (hbusy r (rs'.take k)) r').mp (hall k r' hk)
    · rintro ⟨hcalls, hall⟩
      cases rs with
      | nil => cases hcalls
      | cons r rs' =>
        obtain ⟨rfl, rfl⟩ := List.cons.inj hcalls
        refine ⟨r, rs', rfl, rfl, hall 0 r rfl, ih.mpr ⟨rfl, fun k r' hk => ?_⟩⟩
        exact (over_congr (hbusy r (rs'.take k)) r').mpr (hall (k + 1) r' hk)

theorem length_resolveAll {isNamed : Nat → Bool} {now : Nat} {cs : List Call} {book : List (Option Station)} {busy : List Nat}
    {rs : List Resolved} (h : resolveAll isNamed now cs book busy = some rs) : rs.length = cs.length := by
  rw [← (resolveAll_eq_some_iff.mp h).1, List.length_map]

/-- The resolution fails exactly at an addressee that no entry holds and none can be given, over what the earlier ones left. -/
theorem resolveAll_eq_none_iff {isNamed : Nat → Bool} {now : Nat} {cs : List Call} {book : List (Option Station)} {busy : List Nat} :
    resolveAll isNamed now cs book busy = none ↔ ∃ k, k < cs.length ∧ ∃ rs c, resolveAll isNamed now (cs.take k) book busy = some rs
      ∧ cs[k]? = some c ∧ findCall (bookAfter now book rs) c = none
      ∧ provideEntry (bookAfter now book rs) isNamed (rs.map Resolved.entry ++ busy) = none := by
  induction cs generalizing book busy with
  | nil => simp [resolveAll]
  | cons c cs ih =>
    by_cases hfirst : findCall book c = none ∧ provideEntry book isNamed busy = none
    · refine iff_of_true ?_ ⟨0, by simp, [], c, rfl, rfl, hfirst⟩
      simp only [resolveAll, hfirst.1, hfirst.2]
    · obtain ⟨r, hr, hover⟩ : ∃ r : Resolved, r.call = c ∧ r.over book isNamed busy := by
        cases hfind : findCall book c with
        | some e => exact ⟨⟨c, e, false, false⟩, rfl, hfind, rfl⟩
        | none =>
          cases hprovide : provideEntry book isNamed busy with
          | none => exact absurd ⟨hfind, hprovide⟩ hfirst
          | some x => exact ⟨⟨c, x.1, true, x.2⟩, rfl, hfind, hprovide⟩
      have honly {r' : Resolved} (hr' : r'.call = c) (hover' : r'.over book isNamed busy) : r' = r := by
        obtain ⟨c1, e1, made1, rec1⟩ := r
        obtain ⟨c2, e2, made2, rec2⟩ := r'
        cases hr
        cases hr'
        cases made1 <;> cases made2 <;> simp_all [Resolved.over]
      have hnone : resolveAll isNamed now (c :: cs) book busy = none
          ↔ resolveAll isNamed now cs (bookAfter now book [r]) (r.entry :: busy) = none := by
        rw [Option.eq_none_iff_forall_not_mem, Option.eq_none_iff_forall_not_mem]
        constructor
        · intro h rs hrs
          exact h (r :: rs) (resolveAll_cons_iff.mpr ⟨r, rs, rfl, hr, hover, hrs⟩)
        · intro h rs hrs
          obtain ⟨r', rs', -, hr', hover', hrs'⟩ := resolveAll_cons_iff.mp hrs
          rw [honly hr' hover'] at hrs'
          exact h rs' hrs'
      have hbusy (l : List Resolved) (e : Nat) :
          e ∈ l.map Resolved.entry ++ r.entry :: busy ↔ e ∈ (r :: l).map Resolved.entry ++ busy := by
        simp only [List.mem_append, List.mem_cons, List.map_cons, List.cons_append]; tauto
      rw [hnone, ih]
      constructor
      · rintro ⟨k, hk, rs, d, hrs, hd, hfind, hprovide⟩
        refine ⟨k + 1, by simpa using hk, r :: rs, d, resolveAll_cons_iff.mpr ⟨r, rs, rfl, hr, hover, hrs⟩, hd, hfind, ?_⟩
        rw [← provideEntry_congr (hbusy rs)]
        exact hprovide
      · rintro ⟨k, hk, rs, d, hrs, hd, hfind, hprovide⟩
        cases k with
        | zero =>
          cases hrs
          cases hd
          exact absurd ⟨hfind, hprovide⟩ hfirst
        | succ k =>
          obtain ⟨r', rs', rfl, hr', hover', hrs'⟩ := resolveAll_cons_iff.mp hrs
          rw [honly hr' hover'] at hrs' hfind hprovide
          refine ⟨k, by simpa using hk, rs', d, hrs', hd, hfind, ?_⟩
          rw [provideEntry_congr (hbusy rs')]
          exact hprovide

/-! ### The refusals of LODGE OPEN -/

theorem slotCondition_eq (prec : Prec) : slotCondition prec
    = fun u : State => if prec = .life then decide (u.store.length < 128) else decide (u.store.length + 8 < 128) := by
  have hslots : Config.slots = 128 := rfl
  have hreserve : Config.slotReserve = 8 := rfl
  funext u
  simp only [slotCondition, beq_iff_eq, State.freeSlots, hslots, hreserve]
  split <;> rw [decide_eq_decide] <;> omega

theorem countDuplicate_eq (s : State) : s.countDuplicate = { s with
    totals := { s.totals with duplicates := min (s.totals.duplicates + 1) 65535 }
    status := s.statusAt .duplicateSeen fun q => s.roles.get q == .console } := by
  rw [State.countDuplicate, State.raiseConsoles, State.raiseWhere_frame]
  have hstatus := State.raiseConsoles_status { s with totals := { s.totals with duplicates := bump s.totals.duplicates } }
    (k := .duplicateSeen) (by decide)
  rw [State.raiseConsoles] at hstatus
  rw [hstatus]
  rfl

/-- A LODGE OPEN whose form has passed, at a port that is lodging nothing and with its addressees resolved. -/
theorem serveLodgeOpen_resolved {s : State} {p : Port} {prec : Byte} {origin : List Byte} {serial check : Half}
    {addressees : List (List Byte)} {f : OpenFields} {rs : List Resolved}
    (hfields : openFields prec origin serial check addressees = some f) (hempty : s.lodges.get p = none)
    (hresolved : resolveAll s.named s.clock f.calls s.book [] = some rs) :
    serveLodgeOpen p prec origin serial check addressees s = match f.origin.map fun o => (⟨o, f.serial⟩ : Key) with
      | some key =>
        if s.dupTable.contains key then s.countDuplicate.answer .duplicate (s.holderOfKey key)
        else if s.ring.contains key then s.countDuplicate.answer .duplicate (be16 0 ++ be8 0xFF ++ be8 0xFF)
        else s.openIfRoom p f rs
      | none => s.openIfRoom p f rs := by
  simp only [serveLodgeOpen, hfields, hempty, hresolved] <;> rfl

theorem serveLodgeOpen_new {s : State} {p : Port} {prec : Byte} {origin : List Byte} {serial check : Half}
    {addressees : List (List Byte)} {f : OpenFields} {rs : List Resolved}
    (hfields : openFields prec origin serial check addressees = some f) (hempty : s.lodges.get p = none)
    (hresolved : resolveAll s.named s.clock f.calls s.book [] = some rs)
    (hnew : ∀ o, f.origin = some o → (⟨o, f.serial⟩ : Key) ∉ s.dupTable ∧ (⟨o, f.serial⟩ : Key) ∉ s.ring) :
    serveLodgeOpen p prec origin serial check addressees s = s.openIfRoom p f rs := by
  rw [serveLodgeOpen_resolved hfields hempty hresolved]
  cases ho : f.origin with
  | none => rfl
  | some o =>
    obtain ⟨htable, hring⟩ := hnew o ho
    simp [htable, hring]

/-- Settles O32. -/
theorem lodgeOpenRefusalsComeInOrder : Obligations.LodgeOpenRefusalsComeInOrder := by
  refine ⟨?_, fun field c => ?_, fun prec origin serial check addressees =>
    ⟨openFields_eq_none_iff .., fun f hf => openFields_eq_some hf⟩, fun s calls => ⟨fun rs => ?_, ?_⟩⟩
  · intro p tag prec origin serial check addressees i g s hfree hi hw hframe refused fields
    subst hi
    have hkind := Laws.FrameKind.lodgeOpen p tag prec origin serial check addressees p g hframe hw
    have refuse {u : State} {r : Result} {out : List Byte}
        (h : serveLodgeOpen p prec origin serial check addressees s = u.answer r out) (hunits : u.units = s.units) : refused u r out :=
      answered_of_serve hframe hfree hkind.1
        (by cases hframe; exact mayUse_of_hears (kind := 0x10) (hears_of_freeAt hfree) (by decide)) hkind.2 h hunits
    refine ⟨fun hnone => refuse ?_ rfl, fun f hf => ⟨fun l hl => refuse ?_ rfl, fun hempty => ⟨fun hno => refuse ?_ rfl, ?_, ?_⟩⟩⟩
    · simp only [serveLodgeOpen, show openFields prec origin serial check addressees = none from hnone]
    · simp only [serveLodgeOpen, show openFields prec origin serial check addressees = some f from hf, hl]
    · simp only [serveLodgeOpen, show openFields prec origin serial check addressees = some f from hf, hempty, hno]
    · intro rs o hrs ho counted
      have hcounted : s.countDuplicate = counted := countDuplicate_eq s
      have hserve := serveLodgeOpen_resolved hf hempty hrs
      simp only [ho, Option.map_some] at hserve
      refine ⟨fun m htable hm => refuse ?_ rfl, fun htable hring => refuse ?_ rfl⟩
      · rw [hserve, if_pos (by simpa using htable), hcounted, State.holderOfKey, hm] <;> rfl
      · rw [hserve, if_neg (by simpa using htable), if_pos (by simpa using hring), hcounted]
        rfl
    · intro rs hrs hnew hno
      refine refuse ?_ rfl
      rw [serveLodgeOpen_new hf hempty hrs hnew, State.openIfRoom, slotCondition_eq, hno]
  · rw [callOf_eq_some_iff]
    simp only [isCallByte_iff]
    rfl
  · have hover (k : Nat) (r : Resolved) : r.over (bookAfter s.clock s.book (rs.take k)) s.named ((rs.take k).map Resolved.entry ++ [])
        ↔ (let book := (s.writeResolved (rs.take k)).book
          if r.made then findCall book r.call = none ∧ provideEntry book s.named ((rs.take k).map Resolved.entry) = some (r.entry, r.recycled)
          else findCall book r.call = some r.entry ∧ r.recycled = false) := by
      rw [List.append_nil, writeResolved_book]; exact Iff.rfl
    rw [resolveAll_eq_some_iff]
    simp only [hover]
  · rw [resolveAll_eq_none_iff]
    simp only [List.append_nil, writeResolved_book]

end Sys2Proof.Machine
end

section
/-! PROOF. LODGE OPEN served: the entries written, the number given, the message made (R27, R29, R49, R50). -/
namespace Sys2Proof.Machine

/-! ### The entries that a resolution makes -/

section
variable {book : List (Option Station)} {isNamed : Nat → Bool} {busy : List Nat} {now e : Nat} {recycled : Bool} {rs : List Resolved}

/-- An entry provided is a free one, or one that may be recycled. -/
theorem provideEntry_spec (h : provideEntry book isNamed busy = some (e, recycled)) :
    (recycled = false ∧ FreeEntry book e) ∨ recycled = true ∧ ∃ st, Recyclable book isNamed busy e st := by
  rcases provideEntry_cases (book := book) (isNamed := isNamed) (busy := busy) with ⟨d, hd, hfree, -⟩ | ⟨-, ⟨d, st, hd, hold, -⟩ | ⟨hd, -⟩⟩
  · rw [h] at hd; cases hd; exact .inl ⟨rfl, hfree⟩
  · rw [h] at hd; cases hd; exact .inr ⟨rfl, st, hold⟩
  · rw [h] at hd; cases hd

theorem provideEntry_lt (h : provideEntry book isNamed busy = some (e, recycled)) : e < book.length := by
  rcases provideEntry_spec h with ⟨-, -, -, hget⟩ | ⟨-, st, -, hget, -⟩
  · exact (List.getElem?_eq_some_iff.mp hget).1
  · exact (List.getElem?_eq_some_iff.mp hget).1

/-- Entry 0, which is always named, is never provided. -/
theorem provideEntry_pos (hnamed : isNamed 0 = true) (h : provideEntry book isNamed busy = some (e, recycled)) : e ≠ 0 := by
  rintro rfl
  rcases provideEntry_spec h with ⟨-, h1, -⟩ | ⟨-, st, -, -, -, hno, -⟩
  · omega
  · rw [hnamed] at hno; cases hno

@[simp] theorem length_bookAfter (now : Nat) (book : List (Option Station)) (rs : List Resolved) :
    (bookAfter now book rs).length = book.length :=
  foldl_keeps (g := List.length) (fun b r => by split <;> simp) rs book

theorem bookAfter_append (l l' : List Resolved) : bookAfter now book (l ++ l') = bookAfter now (bookAfter now book l) l' :=
  List.foldl_append

theorem bookAfter_cons (r : Resolved) (l : List Resolved) : bookAfter now book (r :: l)
    = bookAfter now (if r.made then book.set r.entry (some (newStation r.call .auto now)) else book) l := rfl

/-- An entry that no addressee makes is as it was. -/
theorem getElem?_bookAfter_of_ne (h : ∀ r ∈ rs, r.made = true → r.entry ≠ e) : (bookAfter now book rs)[e]? = book[e]? := by
  induction rs generalizing book with
  | nil => rfl
  | cons r rs ih =>
    rw [bookAfter_cons, ih fun x hx => h x (List.mem_cons_of_mem r hx)]
    split
    next hmade => rw [List.getElem?_set_ne (h r (by simp) hmade)]
    next => rfl

/-- An entry in use stays in use. -/
theorem bookAfter_used {st : Station} (h : book[e]? = some (some st)) : ∃ st', (bookAfter now book rs)[e]? = some (some st') := by
  induction rs generalizing book st with
  | nil => exact ⟨st, h⟩
  | cons r rs ih =>
    rw [bookAfter_cons]
    split
    · by_cases he : r.entry = e
      · exact ih (st := newStation r.call .auto now) (by rw [← he, List.getElem?_set_self (by
          rw [he]; exact (List.getElem?_eq_some_iff.mp h).1)])
      · exact ih (st := st) (by rw [List.getElem?_set_ne he, h])
    · exact ih h

/-- What is known of an addressee of a resolution, from the addressees before it. -/
theorem over_of_resolveAll {cs : List Call} {l l' : List Resolved} {r : Resolved}
    (h : resolveAll isNamed now cs book [] = some (l ++ r :: l')) : r.over (bookAfter now book l) isNamed (l.map Resolved.entry) := by
  have hover := (resolveAll_eq_some_iff.mp h).2 l.length r (by simp)
  rwa [List.take_left' rfl, List.append_nil] at hover

theorem over_made {r : Resolved} (h : r.over book isNamed busy) (hmade : r.made = true) :
    findCall book r.call = none ∧ provideEntry book isNamed busy = some (r.entry, r.recycled) := by
  unfold Resolved.over at h; rwa [if_pos hmade] at h

/-- No two addressees make one entry. -/
theorem made_entry_ne {cs : List Call} {l l' : List Resolved} {r r' : Resolved}
    (h : resolveAll isNamed now cs book [] = some (l ++ r :: l')) (hmade : r.made = true) (hmem : r' ∈ l') (hmade' : r'.made = true) :
    r'.entry ≠ r.entry := by
  obtain ⟨l1, l2, rfl⟩ := List.append_of_mem hmem
  have hr := over_made (over_of_resolveAll h) hmade
  have hlt : r.entry < (bookAfter now book l).length := provideEntry_lt hr.2
  have hr' := over_made (over_of_resolveAll (l := l ++ r :: l1) (l' := l2) (by rw [h]; simp)) hmade'
  obtain ⟨st, hst⟩ : ∃ st, (bookAfter now book (l ++ r :: l1))[r.entry]? = some (some st) := by
    rw [bookAfter_append, bookAfter_cons, if_pos hmade]
    exact bookAfter_used (st := newStation r.call .auto now) (List.getElem?_set_self hlt)
  intro he
  rcases provideEntry_spec hr'.2 with ⟨-, -, -, hget⟩ | ⟨-, st', -, -, -, -, hbusy⟩
  · rw [he, hst] at hget; cases hget
  · exact hbusy (by rw [he]; simp)

/-- An entry that an addressee makes stands as it is provided, in any book that is long enough. -/
theorem getElem?_bookAfter_of_made {cs : List Call} {r : Resolved} (h : resolveAll isNamed now cs book [] = some rs) (hmem : r ∈ rs)
    (hmade : r.made = true) {b : List (Option Station)} (hlength : b.length = book.length) :
    (bookAfter now b rs)[r.entry]? = some (some (newStation r.call .auto now)) := by
  obtain ⟨l, l', rfl⟩ := List.append_of_mem hmem
  have hlt := provideEntry_lt (over_made (over_of_resolveAll h) hmade).2
  rw [length_bookAfter] at hlt
  rw [bookAfter_append, bookAfter_cons, if_pos hmade,
    getElem?_bookAfter_of_ne fun r' hr' hmade' => made_entry_ne h hmade hr' hmade', List.getElem?_set_self]
  rw [length_bookAfter, hlength]
  exact hlt

theorem made_entry_pos {cs : List Call} {r : Resolved} (h : resolveAll isNamed now cs book [] = some rs) (hnamed : isNamed 0 = true)
    (hmem : r ∈ rs) (hmade : r.made = true) : r.entry ≠ 0 := by
  obtain ⟨l, l', rfl⟩ := List.append_of_mem hmem
  exact provideEntry_pos hnamed (over_made (over_of_resolveAll h) hmade).2

end

/-! ### The entries written -/

/-- The streak once the new entries are written: one for an entry that is recycled ends. -/
def streakAfter (rs : List Resolved) (k : Option Streak) : Option Streak :=
  k.bind fun k => if rs.any fun r => r.made && r.recycled && r.entry == k.station then none else some k

theorem writeResolved_eq (s : State) (rs : List Resolved) :
    s.writeResolved rs = { s with book := bookAfter s.clock s.book rs, streak := streakAfter rs s.streak } := by
  induction rs generalizing s with
  | nil => cases hk : s.streak <;> simp [State.writeResolved, bookAfter, streakAfter, ← hk]
  | cons r rs ih =>
    have hcons : s.writeResolved (r :: rs)
        = (if r.made then s.writeEntry r.entry r.recycled (newStation r.call .auto s.clock) else s).writeResolved rs := rfl
    rw [hcons, ih, bookAfter_cons]
    cases hmade : r.made with
    | false =>
      have hstreak : streakAfter (r :: rs) s.streak = streakAfter rs s.streak := by simp [streakAfter, hmade]
      simp only [Bool.false_eq_true, if_false, hstreak]
    | true =>
      have hstreak : streakAfter (r :: rs) s.streak
          = streakAfter rs (s.streak.bind fun k => if r.recycled = true ∧ k.station = r.entry then none else some k) := by
        cases s.streak with
        | none => rfl
        | some k =>
          by_cases hk : r.recycled = true ∧ k.station = r.entry
          · simp [streakAfter, hmade, hk]
          · have hno : (r.recycled && r.entry == k.station) = false := by
              rw [Bool.and_eq_false_iff]
              by_cases hrec : r.recycled = true
              · right; simpa using fun he => hk ⟨hrec, he.symm⟩
              · left; simpa using hrec
            simp only [streakAfter, Option.bind_some, if_neg hk, List.any_cons, hmade, Bool.true_and, hno, Bool.false_or]
      simp only [if_true, hstreak, writeEntry_eq]

theorem ownCall_writeResolved {s : State} {rs : List Resolved} (h : ∀ r ∈ rs, r.made = true → r.entry ≠ 0) :
    (s.writeResolved rs).ownCall = s.ownCall := by
  unfold State.ownCall State.station
  rw [writeResolved_eq]
  simp only [getElem?_bookAfter_of_ne h]

theorem findNumber_congr {s t : State} (h : ∀ n, t.numberTaken n = s.numberTaken n) (fuel n : Nat) :
    t.findNumber fuel n = s.findNumber fuel n := by
  induction fuel generalizing n with
  | zero => rfl
  | succ fuel ih => simp only [State.findNumber, h, ih]

theorem nextNumber_writeResolved {s : State} {rs : List Resolved} (h : ∀ r ∈ rs, r.made = true → r.entry ≠ 0) :
    (s.writeResolved rs).nextNumber = s.nextNumber := by
  have htaken (n : Nat) : (s.writeResolved rs).numberTaken n = s.numberTaken n := by
    unfold State.numberTaken
    rw [ownCall_writeResolved h, writeResolved_eq]
  unfold State.nextNumber
  rw [findNumber_congr htaken, writeResolved_eq]

/-! ### What auto-purge leaves of the book -/

@[simp] theorem length_updStations (copies : List Copy) (f : Copy → Station → Station) (s : State) :
    (copies.foldl (fun t c => t.updStation c.station (f c)) s).book.length = s.book.length :=
  foldl_keeps (f := fun (t : State) (c : Copy) => t.updStation c.station (f c)) (g := fun t => t.book.length)
    (fun _ _ => List.length_modify ..) copies s

theorem autoPurgeOne_book_length (s : State) (m : Message) : (s.autoPurgeOne m).book.length = s.book.length :=
  length_updStations m.copies _ s

theorem autoPurgeOne_ownCall (s : State) (m : Message) : (s.autoPurgeOne m).ownCall = s.ownCall := by
  have hstation := (autoPurgeOne_spec s m).2.2.1 0
  unfold State.ownCall
  rw [hstation]
  cases s.station 0 <;> rfl

theorem makeRoom_book_length {s t : State} {cond : State → Bool} (h : s.makeRoom cond = some t) : t.book.length = s.book.length := by
  rcases (makeRoom_cases h).2 with rfl | ⟨k, rfl⟩
  · rfl
  · exact foldl_keeps (g := fun t : State => t.book.length) autoPurgeOne_book_length _ _

theorem makeRoom_ownCall {s t : State} {cond : State → Bool} (h : s.makeRoom cond = some t) : t.ownCall = s.ownCall := by
  rcases (makeRoom_cases h).2 with rfl | ⟨k, rfl⟩
  · rfl
  · exact foldl_keeps autoPurgeOne_ownCall _ _

/-! ### The message made -/

/-- The key of a message that is opened. -/
def openKey (f : OpenFields) (own : Call) (number : Nat) : Key :=
  match f.origin with
  | some o => ⟨o, f.serial⟩
  | none => ⟨own, number⟩

/-- The message record that a served open makes (R29). -/
def openedMessage (f : OpenFields) (key : Key) (number : Nat) (p : Port) (now : Nat) (rs : List Resolved) : Message :=
  { number, phase := .opened, prec := f.prec, origin := key.call, serial := key.serial, wordCheck := f.check, lodgedAt := p
    body := [], chain := [], openStamp := now
    copies := rs.map fun r => { station := r.entry, state := none, attempts := 0, uncertain := false, pinned := none } }

/-- A served open, but for the store-low condition. -/
def State.opened (u : State) (p : Port) (f : OpenFields) (rs : List Resolved) : State :=
  let key := openKey f u.ownCall u.nextNumber
  { u with
    store := insertMsg (openedMessage f key u.nextNumber p u.clock rs) u.store
    lastNumber := u.nextNumber
    dupTable := u.dupTable ++ [key]
    ring := if f.origin = none then u.ring.erase key else u.ring
    lodges := u.lodges.set p (some ⟨u.nextNumber, later u.clock u.storeSet.openTimeout⟩)
    book := bookAfter u.clock u.book rs
    streak := streakAfter rs u.streak }

theorem serveOpen_eq {u : State} {p : Port} {f : OpenFields} {rs : List Resolved} (h : ∀ r ∈ rs, r.made = true → r.entry ≠ 0) :
    u.serveOpen p f rs = (u.opened p f rs).checkLow.answer .ok (be16 u.nextNumber ++ be16 (openKey f u.ownCall u.nextNumber).serial
      ++ be32 (later u.clock u.storeSet.openTimeout) ++ be8 rs.length
      ++ rs.zipIdx.flatMap fun ri => be8 ri.2 ++ ri.1.call ++ be8 ri.1.entry ++ be8 (if ri.1.made then 1 else 0)) := by
  have hflag (b : Bool) : beFlag b = be8 (if b then 1 else 0) := by cases b <;> rfl
  have hnumber := nextNumber_writeResolved (s := u) h
  have hown := ownCall_writeResolved (s := u) h
  unfold State.serveOpen
  simp only [hnumber, hown, hflag]
  cases ho : f.origin with
  | none =>
    simp only [Option.isSome_none, Option.getD_none, Bool.false_eq_true, if_false, writeResolved_eq]
    simp only [State.opened, openKey, openedMessage, ho, if_true]
  | some o =>
    simp only [Option.isSome_some, Option.getD_some, if_true, writeResolved_eq]
    simp only [State.opened, openKey, openedMessage, ho, reduceCtorEq, if_false]

/-- Settles O33. -/
theorem lodgeOpenMakesTheMessage : Obligations.LodgeOpenMakesTheMessage := by
  intro p tag prec origin serial check addressees i g s f rs hfree hi hw hframe hfields hempty hresolved hnew u hu number key deadline
  subst hi
  rw [← slotCondition_eq] at hu
  have hkind := Laws.FrameKind.lodgeOpen p tag prec origin serial check addressees p g hframe hw
  have hnamed : s.named 0 = true := by simp [State.named]
  have hpos (r : Resolved) (hr : r ∈ rs) (hmade : r.made = true) : r.entry ≠ 0 := made_entry_pos hresolved hnamed hr hmade
  have field {α : Type} (g : State → α) (hg : ∀ x : State, g x.unpurged = g x) : g u = g s := by
    rw [← hg u, makeRoom_unpurged hu, hg]
  have hclock : u.clock = s.clock := field State.clock fun _ => rfl
  have hset : u.storeSet = s.storeSet := field State.storeSet fun _ => rfl
  have hserve := serveLodgeOpen_new hfields hempty hresolved hnew
  rw [State.openIfRoom, hu] at hserve
  replace hserve := hserve.trans (serveOpen_eq (u := u) hpos)
  obtain ⟨t, hexec, hbehind, hanswers⟩ := answered_of_serve hframe hfree hkind.1
    (by cases hframe; exact mayUse_of_hears (kind := 0x10) (hears_of_freeAt hfree) (by decide)) hkind.2 hserve
    (by rw [checkLow_eq]; exact field State.units fun _ => rfl)
  have hkey : openKey f u.ownCall u.nextNumber = key := by rw [makeRoom_ownCall hu]; rfl
  rw [checkLow_eq] at hbehind
  have hlow : t.low = (u.opened p f rs).low := (of_behind State.low hbehind :)
  have hstore : t.store = (u.opened p f rs).store := (of_behind State.store hbehind :)
  have hbook : t.book = bookAfter u.clock u.book rs := (of_behind State.book hbehind :)
  have htable : t.dupTable = (u.opened p f rs).dupTable := (of_behind State.dupTable hbehind :)
  have hring : t.ring = (u.opened p f rs).ring := (of_behind State.ring hbehind :)
  have hlodges : t.lodges = (u.opened p f rs).lodges := (of_behind State.lodges hbehind :)
  have hstreak : t.streak = (u.opened p f rs).streak := (of_behind State.streak hbehind :)
  have hstatus : t.status = (u.opened p f rs).statusIfLow (u.opened p f rs).low := (of_behind State.status hbehind :)
  refine ⟨t, hexec, ?_, (of_behind State.lastNumber hbehind :), ?_, ?_, ?_, fun r hr hmade => ?_, fun e he => ?_, ?_, ?_, ?_, ?_, ?_⟩
  · rw [hstore]
    simp only [State.opened, openedMessage, hkey, hclock]
    rfl
  · rw [htable]; simp only [State.opened, hkey]
  · rw [hring]; simp only [State.opened, hkey]
  · rw [hlodges]
    simp only [State.opened, hclock, hset, field State.lodges fun _ => rfl]
    rfl
  · rw [station_eq_some_iff, hbook, hclock]
    exact getElem?_bookAfter_of_made hresolved hr hmade (makeRoom_book_length hu)
  · unfold State.station
    rw [hbook, getElem?_bookAfter_of_ne he]
  · rw [hstreak]
    simp only [State.opened, field State.streak fun _ => rfl]
    rfl
  · rw [hlow]; exact (of_behind State.prevLow hbehind :)
  · have hkeep (b : Bool) : (u.opened p f rs).statusIfLow b = u.unpurged.statusIfLow b := rfl
    rw [hstatus, hlow, hkeep, makeRoom_unpurged hu]; rfl
  · rw [hbehind, hstore, hbook, htable, hring, hlodges, hstreak, hstatus, hlow]
    rfl
  · rw [hkey, hclock, hset] at hanswers
    exact hanswers

end Sys2Proof.Machine
end

section
/-! PROOF. Time, supplies, cold starts and warm starts (R1, R177 to R183). -/
namespace Sys2Proof.Machine

/-- Closing an event out of service, where no line has a request in service, deasserts the outputs and does nothing else. -/
theorem finish_out_of_service {s : State} (hservice : s.inService = false) (hunits : s.units = .same (idleUnit .off)) :
    s.finish = { s with attention := .same false, annOut := ⟨false, false, false, false⟩ } := by
  have hidle : (PerPort.build fun q => { s.units.get q with service := s.closeAsk q (s.serviceOf q) }) = s.units := by
    unfold State.serviceOf
    rw [hunits]
    rfl
  have hattention : PerPort.build s.attentionOf = .same false := by
    have h (p : Port) : s.attentionOf p = false := by rw [State.attentionOf, hservice]; rfl
    rw [funext h]; rfl
  rw [State.finish_eq, hattention, hidle, hservice]
  rfl

theorem powered_iff {s : State} : s.powered = true ↔ s.power ≠ .unpowered := by simp [State.powered]

theorem powered_eq_false_iff {s : State} : s.powered = false ↔ s.power = .unpowered := by simp [State.powered]

theorem losePower_eq {s : State} (h : s.powered = true) : s.losePower = { s.clearVolatile with
    power := .unpowered, roles := .same Role.off, rate := .baud19200, enable := .same 0
    attention := .same false, annOut := ⟨false, false, false, false⟩ } := by
  rw [State.losePower, if_pos h, finish_out_of_service rfl rfl]

/-- Settles O53. -/
theorem clockAndSuppliesAct : Obligations.ClockAndSuppliesAct := by
  intro s
  refine ⟨fun hpower => ?_, fun hpower => ?_⟩
  · have hpowered := powered_iff.mpr hpower
    refine ⟨congrArg _ (if_pos hpowered), congrArg _ (if_pos hpowered), s.losePower, rfl, ?_⟩
    rw [losePower_eq hpowered]
    exact ⟨rfl, rfl, rfl, rfl⟩
  · have hunpowered : ¬ s.powered = true := by rw [powered_eq_false_iff.mpr hpower]; decide
    exact ⟨congrArg _ (if_neg hunpowered), congrArg _ (if_neg hunpowered), congrArg _ (if_neg hunpowered)⟩

/-! ### Start-ups -/

theorem coldStart_finish (s : State) (x : Straps) : (s.coldStart x).finish =
    { s.coldStart x with attention := .same false, annOut := ⟨false, false, false, false⟩ } := finish_out_of_service rfl rfl

theorem warmStart_finish (s : State) (x : Straps) : (s.warmStart x).finish =
    { s.warmStart x with attention := .same false, annOut := ⟨false, false, false, false⟩ } := finish_out_of_service rfl rfl

/-- Main power applied to a part without it whose retained domain is to be started cold. -/
theorem exec_mainPowerApplied_cold {s : State} (hpower : s.power = .unpowered) (hcold : s.latch = true ∨ s.everPowered = false) (x : Straps) :
    exec (.mainPowerApplied x) s = .next ({ s with latch := true, everPowered := true }.coldStart x).finish := by
  have hlatch : (s.latch || !s.everPowered) = true := by simpa using hcold
  have h : s.applyPower x = _ := if_neg (by rw [powered_eq_false_iff.mpr hpower]; decide)
  show Host.Outcome.next (s.applyPower x) = _
  rw [h]
  simp only [hlatch, if_true]

theorem exec_mainPowerApplied_warm {s : State} (hpower : s.power = .unpowered) (hlatch : s.latch = false) (hever : s.everPowered = true)
    (x : Straps) : exec (.mainPowerApplied x) s = .next (s.warmStart x).finish := by
  have hstart : (s.latch || !s.everPowered) = false := by simp [hlatch, hever]
  have hsame : { s with latch := false, everPowered := true } = s := by rw [← hlatch, ← hever]
  have h : s.applyPower x = _ := if_neg (by rw [powered_eq_false_iff.mpr hpower]; decide)
  show Host.Outcome.next (s.applyPower x) = _
  rw [h]
  simp only [hstart, Bool.false_eq_true, if_false]
  exact congrArg (fun u : State => Host.Outcome.next (u.warmStart x).finish) hsame

theorem exec_resetAsserted_powered {s : State} (hpower : s.power ≠ .unpowered) (x : Straps) :
    exec (.resetAsserted x) s = .next ({ s with resetHeld := true }.warmStart x).finish :=
  congrArg _ (if_pos (powered_iff.mpr hpower))

theorem roleOf_eq (x : StrapPair) : roleOf x = (match x with
    | ⟨false, false⟩ => Role.off | ⟨false, true⟩ => Role.intake | ⟨true, false⟩ => Role.channel | ⟨true, true⟩ => Role.console) := by
  obtain ⟨a, b⟩ := x
  cases a <;> cases b <;> rfl

theorem rateOf_eq (x : StrapPair) : rateOf x = (match x with
    | ⟨false, false⟩ => .baud19200 | ⟨false, true⟩ => .baud38400 | ⟨true, false⟩ => .baud57600 | ⟨true, true⟩ => .baud115200) := by
  obtain ⟨a, b⟩ := x
  cases a <;> cases b <;> rfl

/-- Settles O54: each field of a started part is read off the start values. -/
theorem startUpsGiveTheirValues : Obligations.StartUpsGiveTheirValues := by
  intro x s role started kept
  have hroles (r : State) (hr : r.roles = .build fun p => roleOf (x.roles.get p))
      (he : r.enable = .build fun p => routedSet (roleOf (x.roles.get p))) (p : Port) :
      r.roles.get p = role p ∧ r.enable.get p = routedSet (role p) := by
    have hrole : roleOf (x.roles.get p) = role p := roleOf_eq _
    rw [hr, he, PerPort.get_build, PerPort.get_build, hrole]
    exact ⟨rfl, rfl⟩
  refine ⟨fun hpower hcold => ⟨_, exec_mainPowerApplied_cold hpower hcold x, ?_⟩,
    fun hpower hlatch hever => ⟨_, exec_mainPowerApplied_warm hpower hlatch hever x, ?_⟩, fun hpower => ?_,
    fun hpower => ⟨_, exec_resetAsserted_powered hpower x, ?_⟩, fun hpower => ?_⟩
  · rw [coldStart_finish]
    refine ⟨⟨hroles _ rfl rfl, rateOf_eq _, ?_⟩, ?_⟩ <;> and_intros <;> rfl
  · rw [warmStart_finish]
    refine ⟨⟨hroles _ rfl rfl, rateOf_eq _, ?_⟩, ⟨⟨_, rfl⟩, ?_⟩, rfl⟩ <;> and_intros <;> rfl
  · exact congrArg _ (if_pos (powered_iff.mpr hpower))
  · rw [warmStart_finish]
    refine ⟨⟨hroles _ rfl rfl, rateOf_eq _, ?_⟩, ⟨⟨_, rfl⟩, ?_⟩, rfl⟩ <;> and_intros <;> rfl
  · exact congrArg _ (if_neg (by rw [powered_eq_false_iff.mpr hpower]; decide))

end Sys2Proof.Machine
end

section
/-! PROOF. The end of a start-up, and the reset state (R180, R183). -/
namespace Sys2Proof.Machine

theorem routed_console {k : EventKind} (h : k ≠ .granted) : eventBit k &&& routedSet .console = eventBit k := by
  cases k <;> first | exact absurd rfl h | decide

/-- A raise at the consoles, port by port. -/
theorem raiseConsolesIf_get (s : State) (b : Bool) {k : EventKind} (hk : k ≠ .granted) (q : Port) :
    (s.raiseConsolesIf b k).status.get q
      = s.status.get q ||| if b = true ∧ s.roles.get q = .console then eventBit k else 0 := by
  rw [raiseConsolesIf_status_get]
  by_cases h : b = true ∧ s.roles.get q = .console
  · rw [if_pos h, if_pos (by simp [State.isConsole, h]), h.2, routed_console hk]
  · rw [if_neg h, if_neg (by simpa [State.isConsole] using h)]

theorem statusIfLow_get (s : State) (low : Bool) (q : Port) : (s.statusIfLow low).get q
    = s.status.get q ||| if low = true ∧ s.prevLow = false ∧ s.roles.get q = .console then eventBit .storeLow else 0 := by
  unfold State.statusIfLow State.statusAt
  cases low <;> cases s.prevLow <;> simp
  split <;> simp

/-- The events of the end of a start-up, whole. -/
theorem endEvents_eq (s : State) (warm failed : Bool) : s.endEvents warm failed =
    { s with status := (s.endEvents warm failed).status, prevLow := s.low } := by
  have hbare : ((s.raiseConsolesIf warm .recovered).raiseConsolesIf failed .copyFailed).bare = s.bare := by
    rw [raiseConsolesIf_bare, raiseConsolesIf_bare]
  have h := bare_ext hbare
  have hbook : ((s.raiseConsolesIf warm .recovered).raiseConsolesIf failed .copyFailed).book = s.book := by simp
  rw [hbook] at h
  rw [State.endEvents, checkLow_eq]
  generalize (s.raiseConsolesIf warm .recovered).raiseConsolesIf failed .copyFailed = u at h ⊢
  rw [h]
  rfl

theorem endEvents_status_get (s : State) (warm failed : Bool) (q : Port) : (s.endEvents warm failed).status.get q
    = s.status.get q
      ||| (if warm = true ∧ s.roles.get q = .console then eventBit .recovered else 0)
      ||| (if failed = true ∧ s.roles.get q = .console then eventBit .copyFailed else 0)
      ||| (if s.low = true ∧ s.prevLow = false ∧ s.roles.get q = .console then eventBit .storeLow else 0) := by
  have hbare : ((s.raiseConsolesIf warm .recovered).raiseConsolesIf failed .copyFailed).bare = s.bare := by
    rw [raiseConsolesIf_bare, raiseConsolesIf_bare]
  have hlow (u : State) : u.low = u.bare.low := rfl
  have hprev (u : State) : u.prevLow = u.bare.prevLow := rfl
  have hroles (u : State) : u.roles = u.bare.roles := rfl
  rw [State.endEvents, checkLow_eq]
  show (State.statusIfLow _ _).get q = _
  rw [statusIfLow_get, hlow, hprev, hroles ((s.raiseConsolesIf warm _).raiseConsolesIf _ _), hbare,
    raiseConsolesIf_get _ _ (by decide), raiseConsolesIf_get _ _ (by decide), State.raiseConsolesIf_roles]
  rfl

/-- A part at the end of its start-up: begun, with every receiver of a port that is not OFF hunting. -/
def State.startedUp (s : State) (warm failed : Bool) : State :=
  let t := s.begun warm failed
  { t with units := .build fun p => if t.roles.get p == Role.off then t.units.get p else { t.units.get p with receiver := .hunting } }

theorem exec_startUpEnd {s : State} {warm failed : Bool} (h : s.power = .startUp warm failed) :
    exec (.startUpEnd false) s = .next (s.startedUp warm failed).finish := by
  have hend : s.endStartUp false = (s.startedUp warm failed).finish := by
    unfold State.endStartUp
    split <;> rename_i hpower <;> rw [h] at hpower <;> cases hpower
    rfl
  exact congrArg Host.Outcome.next hend

theorem exec_startUpEnd_held {s : State} {warm failed : Bool} (h : s.power = .startUp warm failed) :
    exec (.startUpEnd true) s = .next { s with resetHeld := true } := by
  have hend : s.endStartUp true = { s with resetHeld := true } := by
    unfold State.endStartUp
    split <;> rename_i hpower <;> rw [h] at hpower <;> cases hpower
    rfl
  exact congrArg Host.Outcome.next hend

theorem begun_eq (s : State) (warm failed : Bool) : s.begun warm failed = { s with
    power := .running, resetHeld := false, prevLow := s.low, status := (s.endEvents warm failed).status
    book := (s.decayAll s.dispatch.decay).book } := by
  have hstatus : (State.endEvents { s with resetHeld := false } warm failed).status = (s.endEvents warm failed).status := by
    refine PerPort.ext_get fun q => ?_
    rw [endEvents_status_get, endEvents_status_get]
    rfl
  unfold State.begun
  rw [endEvents_eq, hstatus]
  rfl

/-- Settles O56. -/
theorem startUpEndBeginsService : Obligations.StartUpEndBeginsService := by
  refine ⟨fun s warm failed hpower => ⟨exec_startUpEnd_held hpower, _, exec_startUpEnd hpower, ?_⟩, fun s held hpower => ?_⟩
  · have hbegun := begun_eq s warm failed
    have hbook : (s.startedUp warm failed).finish.book = (s.decayAll s.dispatch.decay).book := by
      rw [State.finish_book, State.startedUp, hbegun]
    have hstation (e : Nat) : (s.startedUp warm failed).finish.station e = (s.decayAll s.dispatch.decay).station e := by
      unfold State.station; rw [hbook]
    have hstatus : (s.startedUp warm failed).finish.status = (s.endEvents warm failed).status := by
      rw [State.finish_status, State.startedUp, hbegun]
    refine ⟨fun q => ?_, fun q => ?_, State.finish_outputs _, fun e st hst => ?_, fun e hnone => ?_, ?_⟩
    · rw [hstatus, endEvents_status_get]
    · rw [State.finish_unit, State.finish_closeAsk, State.serviceOf]
      have hunit : (s.startedUp warm failed).units.get q
          = if s.roles.get q = .off then s.units.get q else { s.units.get q with receiver := .hunting } := by
        rw [State.startedUp, hbegun]
        simp only [PerPort.get_build, beq_iff_eq]
      rw [hunit]
    · have hu := hstation e
      rw [State.station_decayAll, hst] at hu
      refine ⟨_, hu, rfl, fun k => ?_⟩
      simp only [PerPort.get_build, Bool.and_eq_true, isChannel_iff, decayDue_iff]
      rfl
    · rw [hstation, State.station_decayAll, hnone]; rfl
    · rw [hstatus, hbook, State.finish_behind, State.startedUp, hbegun]
      rfl
  · show Host.Outcome.next (s.endStartUp held) = _
    rcases hpower with h | h <;> simp only [State.endStartUp, h]

/-! ### The reset state -/

/-- The law of a part without traffic: what it still asks of the numbers, the book, the asks and the limits. -/
theorem wholeInLaw_of_empty {s : State} (hstore : s.store = []) (hdup : s.dupTable = []) (hring : s.ring = [])
    (hlodges : s.lodges = .same none) (hlists : s.lists = .same []) (hlast : s.lastNumber ≤ Config.numberMax)
    (hlow : s.inService = true → s.prevLow = s.low) (hlength : s.book.length = Config.entries) (hown : (s.station 0).isSome = true)
    (hasks : ∀ p n f, s.isChannel p = true → (s.channels.get p).state = .asking n (some f) → (s.station f).isSome = true)
    (hwaiting : ∀ e st, s.station e = some st → st.waiting = 0) (hlimits : ∀ prec, 1 ≤ s.limit prec ∧ s.limit prec ≤ 15) :
    s.wholeInLaw := by
  refine ⟨⟨?_, ?_, ?_, ?_, hlast, hlow⟩, ⟨?_, ?_, ?_, ?_⟩, ?_, ⟨?_, ?_⟩, ⟨fun p l h => ?_, ?_⟩, ⟨hlength, hown, ?_, hasks, fun e st h => ?_⟩,
    fun p => ?_, ⟨hlimits, ?_⟩, ?_⟩
  case refine_12 => rw [hlodges, PerPort.get_same] at h; cases h
  case refine_15 => rw [hwaiting e st h, hstore]; rfl
  case refine_16 => simp [hlists, hstore]
  all_goals simp [hstore, hdup, hring, State.holdsInLaw]

theorem coldBook_waiting {s : State} (h : s.book = coldBook) (e : Nat) (st : Station) (hst : s.station e = some st) : st.waiting = 0 := by
  rw [State.station, h] at hst
  cases e with
  | zero => cases hst; rfl
  | succ e =>
    have hfree : ((List.replicate 63 (none : Option Station))[e]?).join = none := by
      rw [List.getElem?_replicate]; split <;> rfl
    exact absurd (hfree.symm.trans hst) (by simp)

theorem coldHandOff_limits {s : State} (h : s.handOff = coldHandOff) (prec : Prec) : 1 ≤ s.limit prec ∧ s.limit prec ≤ 15 := by
  rw [State.limit, h]
  cases prec <;> decide

theorem reset_wholeInLaw : State.reset.wholeInLaw :=
  wholeInLaw_of_empty rfl rfl rfl rfl rfl (by decide) (fun _ => rfl) rfl rfl (fun p n f _ h => by cases p <;> cases h)
    (coldBook_waiting rfl) (coldHandOff_limits rfl)

/-- Settles O59. -/
theorem resetIsWhereAColdStartEnds : Obligations.ResetIsWhereAColdStartEnds := by
  refine ⟨⟨?_, ?_, ?_, reset_wholeInLaw.1, reset_wholeInLaw⟩, ?_⟩
  · exact ⟨fun p => by cases p <;> decide, by decide⟩
  · exact fun p => by cases p <;> decide
  · exact fun p => by cases p <;> decide
  · intro s hpower hcold hpending hpicks straps
    refine ⟨_, exec_mainPowerApplied_cold hpower hcold straps, ?_⟩
    rw [coldStart_finish, exec_startUpEnd (warm := false) (failed := false) rfl]
    have hstart : State.startedUp { ({ s with latch := true, everPowered := true } : State).coldStart straps with
        attention := .same false, annOut := ⟨false, false, false, false⟩ } false false = State.reset := by
      cases s; cases hpending; cases hpicks
      rfl
    have hreset : State.reset.finish = State.reset := by decide
    rw [hstart, hreset]

end Sys2Proof.Machine
end

section
/-! PROOF. The recovery pass of a warm start (R54, R59, R82, R181, R182). -/
namespace Sys2Proof.Machine

/-! ### A store and a table of keys without some messages -/

theorem foldl_erase_key (ms : List Message) (table : List Key) :
    ms.foldl (fun t m => t.erase m.key) table = table.diff (ms.map Message.key) := by
  induction ms generalizing table with
  | nil => simp
  | cons m ms ih => rw [List.foldl_cons, ih, List.map_cons, List.diff_cons]

theorem append_diff_self (l l' : List Key) : (l ++ l').diff l = l' := by
  induction l with
  | nil => rfl
  | cons k l ih => rw [List.cons_append, List.diff_cons, List.erase_cons_head, ih]

/-- With the keys of some messages taken out of the table, it holds the keys of the others. -/
theorem diff_keys_perm {store : List Message} {table : List Key} (h : table.Perm (store.map Message.key)) (p : Message → Bool) :
    (table.diff ((store.filter p).map Message.key)).Perm ((store.filter fun m => !p m).map Message.key) := by
  have hsplit : (store.map Message.key).Perm ((store.filter p).map Message.key ++ (store.filter fun m => !p m).map Message.key) := by
    rw [← List.map_append]
    exact ((List.filter_append_perm p store).map _).symm
  refine ((h.trans hsplit).diff_right _).trans ?_
  rw [append_diff_self]

/-! ### Copies and messages -/

section
variable (s : State) (x : Straps)

/-- The part with the straps read and the retained state adjusted for them: where the recovery pass begins. -/
def State.adjusted : State := (s.startValues x).adjustRoles

/-- A copy with its pin adjusted for the roles just read. -/
def State.adjustCopy (c : Copy) : Copy :=
  { c with pinned := c.pinned.bind fun k => if (s.startValues x).isChannel k then some k else none }

/-- A copy of a message as a warm start leaves it. -/
def State.restartedCopy (m : Message) (c : Copy) : Copy := Copy.recover (s.limit m.prec) (s.adjustCopy x c)

/-- A message as a warm start leaves it. -/
def State.restarted (m : Message) : Message :=
  Message.rephase s.clock { m with copies := m.copies.map (s.restartedCopy x m) }

theorem adjusted_store : (s.adjusted x).store = s.store.map fun m => { m with copies := m.copies.map (s.adjustCopy x) } := rfl

theorem warmStart_store : (s.warmStart x).store = (s.store.filter fun m => !m.isOpen).map (s.restarted x) := by
  have h : (s.warmStart x).store = ((s.adjusted x).store.filter fun m => !m.isOpen).map (s.adjusted x).recoverMsg := rfl
  rw [h, adjusted_store, List.filter_map, List.map_map]
  refine List.map_congr_left fun m _ => ?_
  simp only [State.restarted, State.restartedCopy, State.recoverMsg, Function.comp_apply, List.map_map]
  rfl

theorem warmStart_dupTable : (s.warmStart x).dupTable = s.dupTable.diff ((s.store.filter Message.isOpen).map Message.key) := by
  have h : (s.warmStart x).dupTable = ((s.adjusted x).store.filter Message.isOpen).foldl (fun t m => t.erase m.key) s.dupTable := rfl
  rw [h, foldl_erase_key, adjusted_store, List.filter_map, List.map_map]
  rfl

theorem rephase_key (now : Nat) (m : Message) : (Message.rephase now m).key = m.key := by
  unfold Message.rephase; split <;> (try split) <;> rfl

theorem restarted_key (m : Message) : (s.restarted x m).key = m.key := rephase_key ..

theorem warmStart_dupTable_perm (h : s.dupTable.Perm (s.store.map Message.key)) :
    (s.warmStart x).dupTable.Perm ((s.warmStart x).store.map Message.key) := by
  rw [warmStart_dupTable, warmStart_store, List.map_map]
  have hkey : Message.key ∘ s.restarted x = Message.key := funext fun m => restarted_key s x m
  rw [hkey]
  exact diff_keys_perm h Message.isOpen

theorem warmStart_station (e : Nat) : (s.warmStart x).station e = (s.station e).map fun st =>
    { (s.startValues x).adjustStation st with waiting := liveFor (s.warmStart x).store e } := by
  have h : (s.warmStart x).book = (s.book.map (Option.map (s.startValues x).adjustStation)).mapIdx fun e st =>
    st.map fun y => { y with waiting := liveFor (s.warmStart x).store e } := rfl
  rw [State.station, h, List.getElem?_mapIdx, List.getElem?_map, State.station]
  rcases s.book[e]? with - | - | st <;> rfl

end

/-- The recovery of a copy, written out by its state. -/
theorem recover_eq (limit : Nat) (c : Copy) : c.recover limit = { c with
    uncertain := c.uncertain || c.holder.isSome
    state := match c.state with
      | some (.heldFor ..) => some .waiting
      | some (.taken _) => some (if limit ≤ c.attempts then .failed else .waiting)
      | some (.withdrawing _) => some .cancelled
      | y => y } := by
  obtain ⟨station, state, attempts, uncertain, pinned⟩ := c
  rcases state with - | state
  · simp [Copy.recover, Copy.lost, Copy.holder]
  · cases state <;> simp [Copy.recover, Copy.lost, Copy.holder, CopyState.holder, Copy.become]

/-- Settles O55. -/
theorem recoveryPassActsOnTheStore : Obligations.RecoveryPassActsOnTheStore := by
  intro x s t hstart channel recover
  obtain ⟨u, ht, hu⟩ : ∃ u : State, t = (u.warmStart x).finish ∧ (u = s ∨ u = { s with resetHeld := true }) := by
    rcases hstart with ⟨hpower, h⟩ | ⟨hpower, hlatch, hever, h⟩
    · rw [exec_resetAsserted_powered hpower] at h
      cases h; exact ⟨_, rfl, .inr rfl⟩
    · rw [exec_mainPowerApplied_warm hpower hlatch hever] at h
      cases h; exact ⟨_, rfl, .inl rfl⟩
  rw [warmStart_finish] at ht
  have hstore : t.store = (s.warmStart x).store := by rw [ht]; rcases hu with rfl | rfl <;> rfl
  have hdup : t.dupTable = (s.warmStart x).dupTable := by rw [ht]; rcases hu with rfl | rfl <;> rfl
  have hbook : t.book = (s.warmStart x).book := by rw [ht]; rcases hu with rfl | rfl <;> rfl
  have hroles : t.roles = (s.startValues x).roles := by rw [ht]; rcases hu with rfl | rfl <;> rfl
  have hpower : t.power = .startUp true (s.adjusted x).recoveryFails := by rw [ht]; rcases hu with rfl | rfl <;> rfl
  have hcount : t.recovered = ((s.adjusted x).store.map fun m => m.copies.countP Copy.inList).sum := by
    rw [ht]; rcases hu with rfl | rfl <;> rfl
  have hchannel : channel = (s.startValues x).isChannel := funext fun k => by rw [State.isChannel, ← hroles]
  have hrecover (m : Message) (c : Copy) : s.restartedCopy x m c = recover m c := by
    have hpin : (s.adjustCopy x c).pinned = c.pinned.filter channel := by
      rw [hchannel, State.adjustCopy]
      cases c.pinned <;> rfl
    have hcopy : s.adjustCopy x c = { c with pinned := c.pinned.filter channel } := by rw [← hpin]; rfl
    rw [State.restartedCopy, hcopy, recover_eq]
    rfl
  have hmsg : s.restarted x = fun m => Message.rephase s.clock { m with copies := m.copies.map (recover m) } :=
    funext fun m => by rw [State.restarted, funext (hrecover m)]
  refine ⟨?_, fun h => ?_, ?_, ?_, fun e => ?_⟩
  · rw [hstore, warmStart_store, hmsg]
    refine congrArg _ (List.filter_congr fun m _ => ?_)
    rw [Message.isOpen]
    by_cases h : m.phase = .opened <;> simp [h]
  · rw [hdup, hstore]; exact warmStart_dupTable_perm s x h
  · rw [hcount, adjusted_store, List.map_map]
    refine congrArg List.sum (List.map_congr_left fun m _ => ?_)
    simp only [Function.comp_apply, List.countP_map]
    rfl
  · rw [hpower]
    have hcopies (m : Message) : (m.copies.map (s.adjustCopy x)).any (fun c => c.state != some .failed
        && (c.recover (s.limit m.prec)).state == some .failed) = true
        ↔ ∃ c ∈ m.copies, c.state ≠ some .failed ∧ (recover m c).state = some .failed := by
      simp only [List.any_map, List.any_eq_true, Function.comp_apply, Bool.and_eq_true, bne_iff_ne, beq_iff_eq, ← hrecover]
      rfl
    have hfails : (s.adjusted x).recoveryFails = true ↔ _ := List.any_eq_true
    rw [Power.startUp.injEq, hfails, adjusted_store]
    simp only [List.mem_map, exists_exists_and_eq_and, Bool.and_eq_true, true_and]
    refine exists_congr fun m => and_congr_right fun _ => and_congr ?_ (hcopies m)
    rw [Bool.not_eq_true', isOpen_eq_false_iff]
  · have hstation : t.station e = (s.warmStart x).station e := by unfold State.station; rw [hbook]
    rw [hstation, warmStart_station, hstore, hchannel]
    refine congrFun (congrArg Option.map (funext fun st => ?_)) _
    have haffinity : (st.affinity.bind fun a => if (s.startValues x).isChannel a.port then some a else none)
        = st.affinity.filter fun a => (s.startValues x).isChannel a.port := by cases st.affinity <;> rfl
    rw [State.adjustStation, haffinity]
    rfl

end Sys2Proof.Machine
end

section
/-! PROOF. The rotation order (R103, R104): the rings are read by their turns, and the channels stand in the order by theirs. -/
namespace Sys2Proof.Machine

/-! ### Rings -/

theorem turnAfter_inj {ptr : Option Nat} {a b : Nat} (ha : a ≤ 6) (hb : b ≤ 6) (h : turnAfter ptr a = turnAfter ptr b) : a = b := by
  cases ptr with
  | none => exact h
  | some k =>
    simp only [turnAfter] at h
    split at h <;> split at h <;> omega

section
variable {α : Type} {key : α → Nat} {ptr : Option Nat} {ring : List α}

theorem mem_onceRound {x : α} : x ∈ onceRound key ptr ring ↔ x ∈ ring := by
  cases ptr with
  | none => rfl
  | some k =>
    simp only [onceRound, List.mem_append, List.mem_filter, decide_eq_true_eq, ← and_or_left, and_iff_left_iff_imp]
    exact fun _ => Nat.lt_or_ge k (key x)

/-- A ring in rising key order, read once round, is in the order of its turns. -/
theorem onceRound_pairwise (hring : ring.Pairwise fun x y => key x < key y) (hkey : ∀ x ∈ ring, key x ≤ 6) :
    (onceRound key ptr ring).Pairwise fun x y => turnAfter ptr (key x) < turnAfter ptr (key y) := by
  cases ptr with
  | none => exact hring
  | some k =>
    refine List.pairwise_append.mpr ⟨?_, ?_, fun x hx y hy => ?_⟩
    · refine (hring.filter _).imp_of_mem fun {x y} hx hy h => ?_
      have hx := of_decide_eq_true (List.mem_filter.mp hx).2
      have hy := of_decide_eq_true (List.mem_filter.mp hy).2
      simp only [turnAfter, if_pos hx, if_pos hy]
      exact h
    · refine (hring.filter _).imp_of_mem fun {x y} hx hy h => ?_
      have hx := of_decide_eq_true (List.mem_filter.mp hx).2
      have hy := of_decide_eq_true (List.mem_filter.mp hy).2
      simp only [turnAfter, if_neg (Nat.not_lt.mpr hx), if_neg (Nat.not_lt.mpr hy)]
      exact Nat.add_lt_add_right h 7
    · obtain ⟨hxr, hx⟩ := List.mem_filter.mp hx
      obtain ⟨-, hy⟩ := List.mem_filter.mp hy
      have hx := of_decide_eq_true hx
      have hy := of_decide_eq_true hy
      have hle := hkey x hxr
      simp only [turnAfter, if_pos hx, if_neg (Nat.not_lt.mpr hy)]
      omega

end

/-! ### Members -/

theorem portNumber_le (p : Port) : portNumber p ≤ 5 := by cases p <;> decide

theorem all_pairwise_portNumber : Port.all.Pairwise fun p q => portNumber p < portNumber q := by decide

section
variable {s : State}

theorem mem_tierPorts {t : Tier} {p : Port} : p ∈ s.tierPorts t ↔ s.roles.get p = .channel ∧ s.dispatch.tiers.get p = t := by
  simp [State.tierPorts, Port.mem_all, isChannel_iff]

/-- The member of the first-level ring that a CHANNEL port belongs to (R103). -/
def State.memberOf (s : State) (p : Port) : Member := if s.dispatch.tiers.get p = .a then .one p else .tierB

/-- The channels of a member, in the order in which it gives them (R104). -/
def State.portsOf (s : State) : Member → List Port
  | .one p => [p]
  | .tierB => s.scanTierB

theorem rotationOrder_eq (s : State) : s.rotationOrder = s.scanFirst.flatMap s.portsOf := by
  refine congrArg (List.flatMap · s.scanFirst) (funext fun m => ?_)
  cases m <;> rfl

theorem firstKey_eq (s : State) (p : Port) : s.firstKey p = (s.memberOf p).key := by
  unfold State.firstKey State.memberOf; split <;> rfl

theorem mem_firstRing {m : Member} : m ∈ s.firstRing ↔ ∃ p, s.roles.get p = .channel ∧ m = s.memberOf p := by
  have hb : (s.tierPorts .b).isEmpty = false ↔ ∃ p, s.roles.get p = .channel ∧ s.dispatch.tiers.get p = .b := by
    rw [Bool.eq_false_iff, ne_eq, List.isEmpty_iff, List.eq_nil_iff_forall_not_mem, not_forall]
    simp only [not_not, mem_tierPorts]
  have htier (x : Tier) : x ≠ .a ↔ x = .b := by cases x <;> decide
  rw [State.firstRing, List.mem_append, List.mem_map]
  constructor
  · rintro (⟨p, hp, rfl⟩ | h)
    · obtain ⟨hrole, htier⟩ := mem_tierPorts.mp hp
      exact ⟨p, hrole, by rw [State.memberOf, if_pos htier]⟩
    · split at h
      · cases h
      next hne =>
        obtain ⟨p, hrole, htier⟩ := hb.mp (by simpa using hne)
        exact ⟨p, hrole, by rw [State.memberOf, htier]; simpa using h⟩
  · rintro ⟨p, hrole, rfl⟩
    rw [State.memberOf]
    split
    next ha => exact .inl ⟨p, mem_tierPorts.mpr ⟨hrole, ha⟩, rfl⟩
    next ha =>
      refine .inr ?_
      rw [if_neg (by simpa using hb.mpr ⟨p, hrole, (htier _).mp ha⟩)]
      exact List.mem_singleton.mpr rfl

theorem firstRing_pairwise (s : State) : s.firstRing.Pairwise fun x y => x.key < y.key := by
  refine List.pairwise_append.mpr ⟨List.pairwise_map.mpr (all_pairwise_portNumber.filter _), ?_, fun x hx y hy => ?_⟩
  · split <;> simp
  · obtain ⟨p, -, rfl⟩ := List.mem_map.mp hx
    have hy : y = .tierB := by
      split at hy
      · cases hy
      · simpa using hy
    rw [hy]
    exact Nat.lt_of_le_of_lt (portNumber_le p) (by decide)

theorem key_le (m : Member) : m.key ≤ 6 := by
  cases m with
  | one p => exact (portNumber_le p).trans (by decide)
  | tierB => exact le_rfl

theorem scanFirst_pairwise (s : State) :
    s.scanFirst.Pairwise fun x y => turnAfter s.firstPtr x.key < turnAfter s.firstPtr y.key :=
  onceRound_pairwise (firstRing_pairwise s) fun x _ => key_le x

theorem scanTierB_pairwise (s : State) : s.scanTierB.Pairwise fun p q =>
    turnAfter (s.tierBPtr.map portNumber) (portNumber p) < turnAfter (s.tierBPtr.map portNumber) (portNumber q) :=
  onceRound_pairwise (all_pairwise_portNumber.filter _) fun p _ => (portNumber_le p).trans (by decide)

theorem mem_scanTierB {p : Port} : p ∈ s.scanTierB ↔ s.roles.get p = .channel ∧ s.dispatch.tiers.get p = .b :=
  mem_onceRound.trans mem_tierPorts

/-- A member of the ring gives the channels that belong to it. -/
theorem mem_portsOf {m : Member} (hm : m ∈ s.scanFirst) {p : Port} : p ∈ s.portsOf m ↔ s.roles.get p = .channel ∧ m = s.memberOf p := by
  obtain ⟨q, hq, rfl⟩ := mem_firstRing.mp (mem_onceRound.mp hm)
  unfold State.memberOf
  by_cases ha : s.dispatch.tiers.get q = .a
  · rw [if_pos ha, State.portsOf, List.mem_singleton]
    constructor
    · rintro rfl; exact ⟨hq, by rw [if_pos ha]⟩
    · rintro ⟨-, h⟩
      split at h
      · exact (Member.one.inj h).symm
      · cases h
  · rw [if_neg ha, State.portsOf, mem_scanTierB]
    refine and_congr_right fun _ => ?_
    cases h : s.dispatch.tiers.get p <;> simp

/-! ### The order -/

theorem mem_rotationOrder {p : Port} : p ∈ s.rotationOrder ↔ s.roles.get p = .channel := by
  rw [rotationOrder_eq, List.mem_flatMap]
  constructor
  · rintro ⟨m, hm, hp⟩
    exact ((mem_portsOf hm).mp hp).1
  · intro h
    have hm : s.memberOf p ∈ s.scanFirst := mem_onceRound.mpr (mem_firstRing.mpr ⟨p, h, rfl⟩)
    exact ⟨_, hm, (mem_portsOf hm).mpr ⟨h, rfl⟩⟩

/-- The channels stand in the rotation order by their turns. -/
theorem rotationOrder_pairwise (s : State) : s.rotationOrder.Pairwise s.turnsBefore := by
  rw [rotationOrder_eq, List.pairwise_flatMap]
  refine ⟨fun m hm => ?_, (scanFirst_pairwise s).imp_of_mem fun hm hm' h p hp q hq => .inl ?_⟩
  · cases m with
    | one p => exact List.pairwise_singleton ..
    | tierB =>
      refine (scanTierB_pairwise s).imp_of_mem fun {p q} hp hq h => .inr ⟨?_, h⟩
      rw [firstKey_eq, firstKey_eq, ← ((mem_portsOf hm).mp hp).2, ← ((mem_portsOf hm).mp hq).2]
  · rw [firstKey_eq, firstKey_eq, ← ((mem_portsOf hm).mp hp).2, ← ((mem_portsOf hm').mp hq).2]
    exact h

theorem not_turnsBefore_self (s : State) (p : Port) : ¬ s.turnsBefore p p := by simp [State.turnsBefore]

theorem turnsBefore_asymm {p q : Port} (h : s.turnsBefore p q) : ¬ s.turnsBefore q p := by
  unfold State.turnsBefore at *
  rintro h'
  rcases h with h | ⟨hkey, h⟩ <;> rcases h' with h' | ⟨hkey', h'⟩
  · omega
  · rw [hkey'] at h; omega
  · rw [hkey] at h'; omega
  · omega

/-- In a list by turns, nothing that does not stand before an element has an earlier turn. -/
theorem not_turnsBefore_of_first {l l' : List Port} {p q : Port} (h : (l ++ p :: l').Pairwise s.turnsBefore) (hq : q ∈ l ++ p :: l')
    (hl : q ∉ l) : ¬ s.turnsBefore q p := by
  rcases List.mem_append.mp hq with hq | hq
  · exact absurd hq hl
  · rcases List.mem_cons.mp hq with rfl | hq
    · exact not_turnsBefore_self s q
    · exact turnsBefore_asymm ((List.pairwise_cons.mp (List.pairwise_append.mp h).2.1).1 q hq)

theorem idxOf_lt_iff {l : List Port} (h : l.Pairwise s.turnsBefore) {p q : Port} (hp : p ∈ l) (hq : q ∈ l) :
    l.idxOf p < l.idxOf q ↔ s.turnsBefore p q := by
  have hforward {p q : Port} (hp : p ∈ l) (hq : q ∈ l) (hlt : l.idxOf p < l.idxOf q) : s.turnsBefore p q := by
    have := List.pairwise_iff_getElem.mp h _ _ (List.idxOf_lt_length_of_mem hp) (List.idxOf_lt_length_of_mem hq) hlt
    simpa using this
  refine ⟨hforward hp hq, fun hturn => ?_⟩
  rcases Nat.lt_trichotomy (l.idxOf p) (l.idxOf q) with hlt | heq | hgt
  · exact hlt
  · rw [(List.idxOf_inj hp).mp heq] at hturn
    exact absurd hturn (not_turnsBefore_self s q)
  · exact absurd (hforward hq hp hgt) (turnsBefore_asymm hturn)

theorem rotationOrder_nodup (s : State) : s.rotationOrder.Nodup :=
  (rotationOrder_pairwise s).imp fun {p q} h hpq => by rw [hpq] at h; exact not_turnsBefore_self s q h

end

end Sys2Proof.Machine
end

section
/-! PROOF. The choice of a grant: a pair, while one exists, by its three steps (R101, R105 to R108). -/
namespace Sys2Proof.Machine

open Sys2Proof.Ranking Sys2Proof.Pairing

/-! ### Pairs -/

section
variable {s : State}

theorem isChannel_of_pair {k : Port} {x : Cand} (h : x ∈ s.pairsOf k) : s.roles.get k = .channel :=
  (openToGrants_iff.mp (mem_pairsOf_iff.mp h).1).1

theorem hasPair_iff {k : Port} : s.hasPair k = true ↔ s.pairsOf k ≠ [] := by
  rw [← Bool.not_eq_false, ne_eq, hasPair_eq_false_iff]

theorem mem_lifePairs {k : Port} {x : Cand} : x ∈ s.lifePairs k ↔ x ∈ s.pairsOf k ∧ x.msg.prec = .life := by
  simp [State.lifePairs]

/-- With distinct local numbers, two candidates of the store that are one copy are one candidate. -/
theorem cand_eq_of_same (hdistinct : s.numbersDistinct) {x y : Cand} (hxm : x.msg ∈ s.store) (hxc : x.msg.copies[x.index]? = some x.copy)
    (hym : y.msg ∈ s.store) (hyc : y.msg.copies[y.index]? = some y.copy) (hnumber : x.msg.number = y.msg.number)
    (hindex : x.index = y.index) : x = y := by
  have hmsg : x.msg = y.msg := List.inj_on_of_nodup_map hdistinct hxm hym hnumber
  rw [hmsg, hindex, hyc] at hxc
  cases x; cases y; cases hxc
  simp_all

theorem eq_of_sameCopy (hdistinct : s.numbersDistinct) {k k' : Port} {x y : Cand} (hx : x ∈ s.pairsOf k) (hy : y ∈ s.pairsOf k')
    (h : x.sameCopy y = true) : x = y := by
  obtain ⟨-, hxm, hxc, -⟩ := mem_pairsOf_iff.mp hx
  obtain ⟨-, hym, hyc, -⟩ := mem_pairsOf_iff.mp hy
  simp only [Cand.sameCopy, Bool.and_eq_true, beq_iff_eq] at h
  obtain ⟨hnumber, hindex⟩ := h
  exact cand_eq_of_same hdistinct hxm hxc hym hyc hnumber hindex

/-! ### Step 1: LIFE (R106) -/

/-- The first of the highest grade, with those before it below it and none above. -/
theorem highestGrade_split {xs : List (Nat × Port)} {x : Nat × Port} (h : highestGrade xs = some x) :
    ∃ l l', xs = l ++ x :: l' ∧ (∀ y ∈ l, y.1 < x.1) ∧ ∀ y ∈ l', y.1 ≤ x.1 := by
  induction xs generalizing x with
  | nil => cases h
  | cons a xs ih =>
    rw [highestGrade] at h
    split at h
    next hnone =>
      cases h
      have hnil : xs = [] := by
        cases xs with
        | nil => rfl
        | cons b xs =>
          rw [highestGrade] at hnone
          split at hnone
          · cases hnone
          · split at hnone <;> cases hnone
      exact ⟨[], xs, rfl, by simp, by simp [hnil]⟩
    next b hb =>
      obtain ⟨l, l', hxs, hl, hl'⟩ := ih hb
      split at h
      next hlt =>
        cases h
        exact ⟨a :: l, l', by rw [hxs]; rfl, List.forall_mem_cons.mpr ⟨hlt, hl⟩, hl'⟩
      next hle =>
        cases h
        refine ⟨[], xs, rfl, by simp, fun y hy => ?_⟩
        rw [hxs] at hy
        rcases List.mem_append.mp hy with hy | hy
        · exact (hl y hy).le.trans (Nat.not_lt.mp hle)
        · rcases List.mem_cons.mp hy with rfl | hy
          · exact Nat.not_lt.mp hle
          · exact (hl' y hy).trans (Nat.not_lt.mp hle)

theorem highestGrade_eq_none_iff {xs : List (Nat × Port)} : highestGrade xs = none ↔ xs = [] := by
  cases xs with
  | nil => exact ⟨fun _ => rfl, fun _ => rfl⟩
  | cons x xs =>
    refine ⟨fun h => ?_, fun h => absurd h (List.cons_ne_nil _ _)⟩
    rw [highestGrade] at h
    split at h
    · cases h
    · split at h <;> cases h

/-- Every LIFE pair, at its rank, in the rotation order of its channel. -/
def State.rankedLife (s : State) : List (Nat × Cand) := s.rotationOrder.flatMap fun k => (s.lifePairs k).map fun x => (s.rankOf k x, x)

/-- The channels with which a candidate is a LIFE pair, in rotation order. -/
def State.lifePorts (s : State) (x : Cand) : List Port := s.rotationOrder.filter fun k => (s.lifePairs k).any x.sameCopy

theorem mem_rankedLife {y : Nat × Cand} : y ∈ s.rankedLife ↔ ∃ k, y.2 ∈ s.pairsOf k ∧ y.2.msg.prec = .life ∧ y.1 = s.rankOf k y.2 := by
  simp only [State.rankedLife, List.mem_flatMap, List.mem_map, mem_rotationOrder, mem_lifePairs]
  constructor
  · rintro ⟨k, -, x, ⟨hx, hlife⟩, rfl⟩
    exact ⟨k, hx, hlife, rfl⟩
  · rintro ⟨k, hy, hlife, hrank⟩
    exact ⟨k, isChannel_of_pair hy, y.2, ⟨hy, hlife⟩, by rw [← hrank]⟩

theorem mem_lifePorts {x : Cand} {k : Port} : k ∈ s.lifePorts x ↔ ∃ y ∈ s.pairsOf k, y.msg.prec = .life ∧ x.sameCopy y = true := by
  simp only [State.lifePorts, List.mem_filter, mem_rotationOrder, List.any_eq_true, mem_lifePairs, and_assoc]
  exact and_iff_right_of_imp fun ⟨_, hy, _⟩ => isChannel_of_pair hy

/-- A LIFE grant, with the ranks and the grades that choose it. -/
theorem chooseLife_eq_some {c : Choice} (h : s.chooseLife = some c) : c.step = .life
    ∧ (∃ k₀, c.cand ∈ s.pairsOf k₀ ∧ c.cand.msg.prec = .life
        ∧ ∀ k x, x ∈ s.pairsOf k → x.msg.prec = .life → orderKey (s.rankOf k₀ c.cand, c.cand) ≤ orderKey (s.rankOf k x, x))
    ∧ ∃ l l', s.lifePorts c.cand = l ++ c.port :: l'
        ∧ (∀ k ∈ l, s.grade c.cand.copy.station k < s.grade c.cand.copy.station c.port)
        ∧ ∀ k ∈ l', s.grade c.cand.copy.station k ≤ s.grade c.cand.copy.station c.port := by
  unfold State.chooseLife at h
  dsimp only at h
  split at h
  · cases h
  next r x hfirst =>
    obtain ⟨gp, hgp, rfl⟩ := Option.map_eq_some_iff.mp h
    obtain ⟨hmem, hleast⟩ := firstRanked_least (xs := s.rankedLife) hfirst
    obtain ⟨k₀, hpair, hlife, hrank⟩ := mem_rankedLife.mp hmem
    refine ⟨rfl, ⟨k₀, hpair, hlife, fun k y hy hylife => ?_⟩, ?_⟩
    · rw [← hrank]
      exact hleast (s.rankOf k y, y) (mem_rankedLife.mpr ⟨k, hy, hylife, rfl⟩)
    · obtain ⟨m, m', hports, hm, hm'⟩ := highestGrade_split hgp
      obtain ⟨l, l'', hl, rfl, hl''⟩ := List.map_eq_append_iff.mp hports
      obtain ⟨p, l', rfl, hp, rfl⟩ := List.map_eq_cons_iff.mp hl''
      subst hp
      exact ⟨l, l', hl, fun k hk => hm _ (List.mem_map_of_mem hk), fun k hk => hm' _ (List.mem_map_of_mem hk)⟩

theorem chooseLife_eq_none_iff : s.chooseLife = none ↔ ∀ k, ∀ x ∈ s.pairsOf k, x.msg.prec ≠ .life := by
  unfold State.chooseLife
  dsimp only
  constructor
  · intro h k x hx hlife
    split at h
    next hnone =>
      have hnil : s.rankedLife = [] := firstRanked_eq_none_iff.mp hnone
      have hmem : (s.rankOf k x, x) ∈ s.rankedLife := mem_rankedLife.mpr ⟨k, hx, hlife, rfl⟩
      rw [hnil] at hmem
      cases hmem
    next r y hfirst =>
      obtain ⟨k₀, hpair, hylife, -⟩ := mem_rankedLife.mp (firstRanked_least (xs := s.rankedLife) hfirst).1
      have hk₀ : k₀ ∈ s.lifePorts y := mem_lifePorts.mpr ⟨y, hpair, hylife, by simp [Cand.sameCopy]⟩
      rw [Option.map_eq_none_iff, highestGrade_eq_none_iff, List.map_eq_nil_iff] at h
      rw [State.lifePorts, h] at hk₀
      cases hk₀
  · intro h
    have hnil : s.rankedLife = [] := List.eq_nil_iff_forall_not_mem.mpr fun y hy => by
      obtain ⟨k, hy, hlife, -⟩ := mem_rankedLife.mp hy
      exact h k _ hy hlife
    have hfirst : firstRanked s.rankedLife = none := firstRanked_eq_none_iff.mpr hnil
    unfold State.rankedLife at hfirst
    rw [hfirst] <;> rfl

/-! ### Step 2: the streak (R107) -/

/-- The pairs of a streak's channel for its station. -/
def State.streakPairs (s : State) (k : Streak) : List Cand := (s.pairsOf k.port).filter fun x => x.copy.station == k.station

theorem mem_streakPairs {k : Streak} {x : Cand} : x ∈ s.streakPairs k ↔ x ∈ s.pairsOf k.port ∧ x.copy.station = k.station := by
  simp [State.streakPairs]

theorem chooseStreak_eq_some_iff {c : Choice} : s.chooseStreak = some c ↔ ∃ k, s.streak = some k ∧ k.count < s.dispatch.runs.get k.port
    ∧ ∃ x, s.best k.port (s.streakPairs k) = some x ∧ c = ⟨k.port, x, .streak⟩ := by
  unfold State.chooseStreak State.streakPairs
  cases s.streak with
  | none => simp
  | some k =>
    by_cases hrun : k.count < s.dispatch.runs.get k.port
    · simp [hrun, eq_comm]
    · simp [hrun]

/-! ### Step 3: the rotation (R108) -/

theorem memberPort_eq (m : Member) : s.memberPort m = (s.portsOf m).find? s.hasPair := by
  cases m with
  | one p => simp only [State.memberPort, State.portsOf, List.find?_cons, List.find?_nil]; cases s.hasPair p <;> rfl
  | tierB => rfl

/-- The rotation takes the first channel of its order that has a pair. -/
theorem chooseRotation_eq (s : State) : s.chooseRotation = (s.rotationOrder.find? s.hasPair).bind fun k =>
    (s.best k (s.pairsOf k)).map fun x => ⟨k, x, .rotation (s.memberOf k)⟩ := by
  have hfirst (l : List Member) (hl : ∀ m ∈ l, m ∈ s.scanFirst) : (match l.find? fun m => (s.memberPort m).isSome with
      | none => none
      | some m => (s.memberPort m).bind fun k => (s.best k (s.pairsOf k)).map fun x => (⟨k, x, .rotation m⟩ : Choice))
      = ((l.flatMap s.portsOf).find? s.hasPair).bind fun k => (s.best k (s.pairsOf k)).map fun x => ⟨k, x, .rotation (s.memberOf k)⟩ := by
    induction l with
    | nil => rfl
    | cons m l ih =>
      rw [List.find?_cons, List.flatMap_cons, List.find?_append, ← memberPort_eq]
      cases hm : s.memberPort m with
      | none => exact ih fun m' hm' => hl m' (.tail _ hm')
      | some k =>
        have hk : m = s.memberOf k :=
          ((mem_portsOf (hl m (.head _))).mp (List.mem_of_find?_eq_some (memberPort_eq m ▸ hm))).2
        simp only [Option.isSome_some, Option.some_or, Option.bind_some, hm, ← hk]
  rw [State.chooseRotation, rotationOrder_eq]
  exact hfirst s.scanFirst fun _ => id

theorem chooseRotation_eq_none_iff : s.chooseRotation = none ↔ ∀ k, s.pairsOf k = [] := by
  rw [chooseRotation_eq]
  constructor
  · intro h k
    by_contra hk
    have hfind : (s.rotationOrder.find? s.hasPair).isSome = true := by
      obtain ⟨x, hx⟩ := List.exists_mem_of_ne_nil _ hk
      exact List.find?_isSome.mpr ⟨k, mem_rotationOrder.mpr (isChannel_of_pair hx), hasPair_iff.mpr hk⟩
    obtain ⟨q, hq⟩ := Option.isSome_iff_exists.mp hfind
    rw [hq, Option.bind_some, Option.map_eq_none_iff, best_eq_none_iff] at h
    exact hasPair_iff.mp (List.find?_some hq) h
  · intro h
    have hfind : s.rotationOrder.find? s.hasPair = none :=
      List.find?_eq_none.mpr fun k _ => by rw [hasPair_iff, not_not]; exact h k
    rw [hfind]; rfl

/-! ### The choice (R105) -/

theorem choose_of_life {c : Choice} (h : s.chooseLife = some c) : s.choose = some c := by rw [State.choose, h]; rfl

theorem choose_of_streak {c : Choice} (hlife : s.chooseLife = none) (h : s.chooseStreak = some c) : s.choose = some c := by
  rw [State.choose, hlife, h]; rfl

theorem choose_of_rotation (hlife : s.chooseLife = none) (hstreak : s.chooseStreak = none) : s.choose = s.chooseRotation := by
  rw [State.choose, hlife, hstreak]; rfl

theorem choose_eq_some {c : Choice} (h : s.choose = some c) :
    s.chooseLife = some c ∨ s.chooseStreak = some c ∨ s.chooseRotation = some c := by
  cases hlife : s.chooseLife with
  | some d => exact .inl (by rw [← h, choose_of_life hlife])
  | none =>
    cases hstreak : s.chooseStreak with
    | some d => exact .inr (.inl (by rw [← h, choose_of_streak hlife hstreak]))
    | none => exact .inr (.inr (by rw [← h, choose_of_rotation hlife hstreak]))

/-- There is a grant to make exactly while a pair exists. -/
theorem choose_eq_none_iff : s.choose = none ↔ ∀ k, s.pairsOf k = [] := by
  constructor
  · intro h
    have hlife : s.chooseLife = none := Option.eq_none_iff_forall_ne_some.mpr fun c hc => by rw [choose_of_life hc] at h; cases h
    have hstreak : s.chooseStreak = none := Option.eq_none_iff_forall_ne_some.mpr fun c hc => by
      rw [choose_of_streak hlife hc] at h; cases h
    rw [choose_of_rotation hlife hstreak] at h
    exact chooseRotation_eq_none_iff.mp h
  · intro h
    have hlife : s.chooseLife = none := chooseLife_eq_none_iff.mpr fun k x hx => by rw [h k] at hx; cases hx
    have hstreak : s.chooseStreak = none := Option.eq_none_iff_forall_ne_some.mpr fun c hc => by
      obtain ⟨k, -, -, x, hx, -⟩ := chooseStreak_eq_some_iff.mp hc
      have hmem := (mem_streakPairs.mp (best_least hx).1).1
      rw [h k.port] at hmem; cases hmem
    rw [choose_of_rotation hlife hstreak]
    exact chooseRotation_eq_none_iff.mpr h

/-- What is chosen is a pair. -/
theorem choose_pair (hdistinct : s.numbersDistinct) {c : Choice} (h : s.choose = some c) : c.cand ∈ s.pairsOf c.port := by
  rcases choose_eq_some h with h | h | h
  · obtain ⟨-, ⟨k₀, hk₀, -⟩, l, l', hports, -⟩ := chooseLife_eq_some h
    obtain ⟨y, hy, -, hsame⟩ := mem_lifePorts.mp (hports ▸ List.mem_append_right l (List.mem_cons_self ..))
    rw [eq_of_sameCopy hdistinct hk₀ hy hsame]
    exact hy
  · obtain ⟨k, -, -, x, hx, rfl⟩ := chooseStreak_eq_some_iff.mp h
    exact (mem_streakPairs.mp (best_least hx).1).1
  · rw [chooseRotation_eq] at h
    obtain ⟨k, -, h⟩ := Option.bind_eq_some_iff.mp h
    obtain ⟨x, hx, rfl⟩ := Option.map_eq_some_iff.mp h
    exact (best_least hx).1

end

/-- Settles O18. -/
theorem grantIsChosenExactlyFromPairs : Obligations.GrantIsChosenExactlyFromPairs := by
  refine ⟨fun s => ⟨choose_eq_none_iff, fun hdistinct c hc => choose_pair hdistinct hc⟩, fun s p => ⟨?_, fun q hp hq => ?_⟩⟩
  · split
    next h => exact List.count_eq_one_of_mem (rotationOrder_nodup s) (mem_rotationOrder.mpr h)
    next h => exact List.count_eq_zero_of_not_mem (mt mem_rotationOrder.mp h)
  · exact idxOf_lt_iff (rotationOrder_pairwise s) (mem_rotationOrder.mpr hp) (mem_rotationOrder.mpr hq)

end Sys2Proof.Machine
end

section
/-! PROOF. What handing a copy over does, and the grant that does it (R63, R105 to R110, R143). -/
namespace Sys2Proof.Machine

open Sys2Proof.Ranking Sys2Proof.Pairing

/-! ### A copy handed over -/

theorem findMsg_of_mem {s : State} (hdistinct : s.numbersDistinct) {m : Message} (hm : m ∈ s.store) : s.findMsg m.number = some m := by
  cases hfind : s.findMsg m.number with
  | none => exact absurd (List.find?_eq_none.mp hfind m hm) (by simp)
  | some m' => rw [List.inj_on_of_nodup_map hdistinct (findMsg_mem hfind) hm (findMsg_number hfind)]

/-- A FILED message stays so while the copy that changes is live. -/
theorem withCopy_of_live {now i : Nat} {d : Copy} {m : Message} (hfiled : ∃ f, m.phase = .filed f) (hd : d.live = true)
    (hi : i < m.copies.length) : Message.withCopy now i d m = { m with copies := m.copies.set i d } := by
  obtain ⟨f, hf⟩ := hfiled
  have hterminal : d.terminal = false := by
    unfold Copy.live at hd
    cases h : d.state with
    | none => rw [h] at hd; cases hd
    | some x => rw [h] at hd; simp_all [Copy.terminal]
  have hall : (m.copies.set i d).all Copy.terminal = false :=
    List.all_eq_false.mpr ⟨d, List.mem_set hi _, by rw [hterminal]; decide⟩
  simp only [Message.withCopy, Message.rephase, hf, hall, Bool.false_eq_true, if_false]

theorem idle_iff {c : Copy} : c.idle = true ↔ c.state = some .waiting ∨ ∃ p ends, c.state = some (.heldFor p ends) := by
  unfold Copy.idle
  split <;> simp_all

theorem live_of_idle {c : Copy} (h : c.idle = true) : c.live = true := by
  rcases idle_iff.mp h with h | ⟨p, ends, h⟩ <;> simp [Copy.live, h, CopyState.live]

theorem holder_of_idle {c : Copy} (h : c.idle = true) : c.holder = none := by
  rcases idle_iff.mp h with h | ⟨p, ends, h⟩ <;> simp [Copy.holder, h, CopyState.holder]

section
variable {s : State} {n i : Nat} {m : Message} {c : Copy} (hm : s.findMsg n = some m) (hc : m.copies[i]? = some c)
  (hfiled : ∃ f, m.phase = .filed f) (hidle : c.idle = true) (p : Port) (prec : Prec)

include hm hc hidle in
theorem handOver_eq : s.handOver p n i prec = { s with
    store := (s.handOver p n i prec).store
    lists := s.lists.set p (s.lists.get p ++ [⟨n, i, later s.clock (s.handOff.times.get prec), 0, false⟩]) } := by
  have hat : s.copyAt n i = some c := by rw [copyAt_of_findMsg hm, hc]
  have halone := changeCopy_store_alone hat (f := fun c => c.become (.taken p)) (by rw [live_of_idle hidle]; rfl) (holder_of_idle hidle)
    (.inl (by simp [Copy.become]))
  unfold State.handOver State.addEntry
  conv_lhs => rw [halone]

include hm hc hfiled in
theorem findMsg_handOver (k : Nat) : (s.handOver p n i prec).findMsg k
    = if k = n then some { m with copies := m.copies.set i { c with state := some (.taken p) } } else s.findMsg k := by
  have hat : s.copyAt n i = some c := by rw [copyAt_of_findMsg hm, hc]
  have hlt : i < m.copies.length := (List.getElem?_eq_some_iff.mp hc).1
  have h : (s.handOver p n i prec).findMsg k = (s.changeCopy n i fun c => c.become (.taken p)).findMsg k := rfl
  rw [h, findMsg_changeCopy hat, hm, Option.map_some, withCopy_of_live (d := c.become (.taken p)) hfiled rfl hlt]
  rfl

/-- The grant record of a copy just handed over, field by field. -/
theorem record_of_handedOver {t : State} {deadline : Nat}
    (hfind : t.findMsg n = some { m with copies := m.copies.set i { c with state := some (.taken p) } }) (hlt : i < m.copies.length)
    (hlist : t.lists.get p = s.lists.get p ++ [⟨n, i, deadline, 0, false⟩]) (hbook : t.book = s.book) (hnone : s.entryOf p n i = none) :
    ((t.entryOf p n i).map t.recordOf).getD [] = be16 n ++ be8 i
      ++ (match s.station c.station with | some st => st.call | none => List.replicate 7 0x20) ++ be8 (precCode m.prec)
      ++ be8 (c.uncertain.toNat + 2 * c.pinned.isSome.toNat) ++ be8 c.attempts ++ be8 0 ++ be32 deadline
      ++ be16 m.body.length ++ be16 m.wordCheck := by
  have hentry : t.entryOf p n i = some ⟨n, i, deadline, 0, false⟩ := by
    unfold State.entryOf at hnone ⊢
    rw [hlist, List.find?_append, hnone]
    simp [Entry.names]
  have hcopy : t.copyAt n i = some { c with state := some (.taken p) } := by
    rw [copyAt_of_findMsg hfind]
    exact List.getElem?_set_self hlt
  have hcall : t.callAt c.station = (match s.station c.station with | some st => st.call | none => List.replicate 7 0x20) := by
    rw [callAt_eq]
    unfold State.station
    rw [hbook] <;> rfl
  simp only [hentry, Option.map_some, Option.getD_some, State.recordOf, hfind, hcopy, State.grantRecord, hcall, Bool.toNat_false,
    Nat.mul_zero, Nat.add_zero]

end

/-! ### The grant -/

/-- The pointers and the streak as a grant leaves them are all of the rotation state that it changes. -/
theorem moveRotation_eq (s : State) (c : Choice) : s.moveRotation c = { s with
    firstPtr := (s.moveRotation c).firstPtr, tierBPtr := (s.moveRotation c).tierBPtr, streak := (s.moveRotation c).streak } := by
  unfold State.moveRotation; split <;> rfl

/-- A grant but for the ASK reply that carries its record. -/
def State.granted (s : State) (c : Choice) : State :=
  (((s.handOver c.port c.cand.msg.number c.cand.index c.cand.msg.prec).updChannel c.port fun x =>
    { x with state := lowerAsk x.state }).moveRotation c).raiseAt .granted c.port

theorem makeGrant_eq (s : State) (c : Choice) : s.makeGrant c = (s.granted c).carryGrant c.port c.cand.msg.number c.cand.index := rfl

theorem granted_rotation (s : State) (c : Choice) : (s.granted c).firstPtr = (s.moveRotation c).firstPtr
    ∧ (s.granted c).tierBPtr = (s.moveRotation c).tierBPtr ∧ (s.granted c).streak = (s.moveRotation c).streak := by
  unfold State.granted
  rw [State.handOver_frame]
  unfold State.moveRotation
  cases c.step with
  | life => exact ⟨rfl, rfl, rfl⟩
  | streak => exact ⟨rfl, rfl, rfl⟩
  | rotation m => cases m <;> exact ⟨rfl, rfl, rfl⟩

theorem exec_grant {s : State} {c : Choice} (hs : s.inService = true) (hc : s.choose = some c) :
    exec .grant s = .next (s.makeGrant c).finish := by
  have htake : s.takeGrant = s.makeGrant c := by rw [State.takeGrant, hc]
  rw [← htake]
  exact exec_event (f := State.takeGrant) rfl hs

/-- Settles O20. -/
theorem lifeThenTheStreakThenTheRotation : Obligations.LifeThenTheStreakThenTheRotation := by
  have hbest {s : State} {p : Port} {x y : Cand} (h : orderKey (atRank s p x) ≤ orderKey (atRank s p y)) :
      standsBefore (s.rankOf p y) y (s.rankOf p x) x = false := by
    rw [Bool.eq_false_iff, ne_eq, standsBefore_rankOf_iff]
    exact not_lt.mpr h
  refine ⟨fun s hdistinct hpair => ?_, fun s k hlife hstreak hrun hpair => ?_, fun s hlife hno hpair => ?_⟩
  · have hsome : s.chooseLife ≠ none := by
      obtain ⟨k, x, hx, hxlife⟩ := hpair
      exact fun h => chooseLife_eq_none_iff.mp h k x hx hxlife
    obtain ⟨c, hc⟩ := Option.ne_none_iff_exists'.mp hsome
    obtain ⟨hstep, ⟨k₀, hk₀, hclife, hleast⟩, l, l', hports, hl, hl'⟩ := chooseLife_eq_some hc
    have hport : c.cand ∈ s.pairsOf c.port := choose_pair hdistinct (choose_of_life hc)
    refine ⟨c, choose_of_life hc, hstep, hport, hclife, ⟨k₀, hk₀, fun k x hx hxlife => ?_⟩, fun k hk => ?_⟩
    · rw [Bool.eq_false_iff, ne_eq]
      exact fun h => (not_lt.mpr (hleast k x hx hxlife)) (standsBefore_iff (x := (s.rankOf k x, x)).mp h)
    · have hmem : k ∈ s.lifePorts c.cand := mem_lifePorts.mpr ⟨_, hk, hclife, by simp [Cand.sameCopy]⟩
      have hturn : (l ++ c.port :: l').Pairwise s.turnsBefore := hports ▸ (rotationOrder_pairwise s).filter _
      rw [hports] at hmem
      by_cases hkl : k ∈ l
      · exact .inl (hl k hkl)
      · have hle : s.grade c.cand.copy.station k ≤ s.grade c.cand.copy.station c.port := by
          rcases List.mem_cons.mp ((List.mem_append.mp hmem).resolve_left hkl) with rfl | hk'
          · exact le_rfl
          · exact hl' k hk'
        rcases hle.lt_or_eq with hlt | heq
        · exact .inl hlt
        · exact .inr ⟨heq, not_turnsBefore_of_first hturn hmem hkl⟩
  · have hnolife : s.chooseLife = none := chooseLife_eq_none_iff.mpr hlife
    have hsome : s.best k.port (s.streakPairs k) ≠ none := by
      obtain ⟨x, hx, hxstation⟩ := hpair
      rw [ne_eq, best_eq_none_iff]
      exact fun h => by have := mem_streakPairs.mpr ⟨hx, hxstation⟩; rw [h] at this; cases this
    obtain ⟨x, hx⟩ := Option.ne_none_iff_exists'.mp hsome
    obtain ⟨hmem, hleast⟩ := best_least hx
    have hchoose : s.choose = some ⟨k.port, x, .streak⟩ :=
      choose_of_streak hnolife (chooseStreak_eq_some_iff.mpr ⟨k, hstreak, hrun, x, hx, rfl⟩)
    refine ⟨_, hchoose, rfl, rfl, (mem_streakPairs.mp hmem).2, fun y hy hystation => hbest (hleast y (mem_streakPairs.mpr ⟨hy, hystation⟩)),
      fun hs => ⟨_, exec_grant hs hchoose, ?_⟩⟩
    obtain ⟨hfirst, htierB, hstreak'⟩ := granted_rotation s ⟨k.port, x, .streak⟩
    rw [makeGrant_eq, State.finish_streak, State.finish_firstPtr, State.finish_tierBPtr]
    refine ⟨?_, hfirst, htierB⟩
    refine hstreak'.trans ?_
    simp only [State.moveRotation, hstreak, Option.map_some]
  · have hnolife : s.chooseLife = none := chooseLife_eq_none_iff.mpr hlife
    have hnostreak : s.chooseStreak = none := Option.eq_none_iff_forall_ne_some.mpr fun c hc => by
      obtain ⟨k, hk, hrun, x, hx, -⟩ := chooseStreak_eq_some_iff.mp hc
      obtain ⟨hmem, hstation⟩ := mem_streakPairs.mp (best_least hx).1
      rcases hno k hk with h | h
      · exact absurd hrun (Nat.not_lt.mpr h)
      · exact h x hmem hstation
    obtain ⟨c, hc⟩ := Option.ne_none_iff_exists'.mp fun h => hpair.elim fun k hk => hk (chooseRotation_eq_none_iff.mp h k)
    have hchoose := (choose_of_rotation hnolife hnostreak).trans hc
    rw [chooseRotation_eq] at hc
    obtain ⟨k, hfind, hc⟩ := Option.bind_eq_some_iff.mp hc
    obtain ⟨x, hx, rfl⟩ := Option.map_eq_some_iff.mp hc
    obtain ⟨hmem, hleast⟩ := best_least hx
    refine ⟨_, hchoose, rfl, hmem, fun y hy => hbest (hleast y hy), fun q hq => ?_⟩
    obtain ⟨-, l, l', horder, hl⟩ := List.find?_eq_some_iff_append.mp hfind
    have hturn : (l ++ k :: l').Pairwise s.turnsBefore := horder ▸ rotationOrder_pairwise s
    have hqmem : q ∈ l ++ k :: l' := by
      obtain ⟨y, hy⟩ := List.exists_mem_of_ne_nil _ hq
      exact horder ▸ mem_rotationOrder.mpr (isChannel_of_pair hy)
    refine not_turnsBefore_of_first hturn hqmem fun hql => ?_
    have := hl q hql
    rw [hasPair_iff.mpr hq] at this
    cases this

end Sys2Proof.Machine
end

section
/-! PROOF. GRANT and TAKE LOCAL: a copy handed over, its record, and the reply that carries it (R102, R109, R110, R142, R143). -/
namespace Sys2Proof.Machine

open Sys2Proof.Ranking Sys2Proof.Pairing

theorem raiseAt_status {s : State} {k : EventKind} {p : Port} (h : eventBit k &&& routedSet (s.roles.get p) = eventBit k) :
    (s.raiseAt k p).status = s.statusWith k p := by
  rw [← Sys2Proof.PortUnit.statusAt_single]
  exact State.raiseWhere_statusAt fun q hq => by rw [beq_iff_eq.mp hq]; exact h

theorem raiseAt_eq {s : State} {k : EventKind} {p : Port} (h : eventBit k &&& routedSet (s.roles.get p) = eventBit k) :
    s.raiseAt k p = { s with status := s.statusWith k p } :=
  (s.raiseWhere_frame k (· == p)).trans (congrArg (fun x => { s with status := x }) (raiseAt_status h))

/-! ### The grant (R109) -/

/-- The channel table with the ask of one channel one lower. -/
def State.askLowered (s : State) (p : Port) : PerPort Channel :=
  s.channels.set p { s.channels.get p with state := lowerAsk (s.channels.get p).state }

/-- A grant of a copy that waits, but for the ASK reply that carries its record. -/
theorem granted_eq {s : State} {c : Choice} {m : Message} {d : Copy} (hm : s.findMsg c.cand.msg.number = some m)
    (hd : m.copies[c.cand.index]? = some d) (hidle : d.idle = true) (hchannel : s.roles.get c.port = .channel) :
    s.granted c = { s with
      store := (s.handOver c.port c.cand.msg.number c.cand.index c.cand.msg.prec).store
      lists := s.lists.set c.port (s.lists.get c.port
        ++ [⟨c.cand.msg.number, c.cand.index, later s.clock (s.handOff.times.get c.cand.msg.prec), 0, false⟩])
      channels := s.askLowered c.port, status := s.statusWith .granted c.port
      firstPtr := (s.moveRotation c).firstPtr, tierBPtr := (s.moveRotation c).tierBPtr, streak := (s.moveRotation c).streak } := by
  have hroute (r : PerPort Role) (h : r = s.roles) : eventBit .granted &&& routedSet (r.get c.port) = eventBit .granted := by
    rw [h, hchannel]; decide
  obtain ⟨hfirst, htierB, hstreak⟩ := granted_rotation s c
  rw [← hfirst, ← htierB, ← hstreak]
  unfold State.granted
  rw [raiseAt_eq (by rw [moveRotation_eq, handOver_eq hm hd hidle]; exact hroute _ rfl), moveRotation_eq, handOver_eq hm hd hidle]
  rfl

theorem lowerAsk_asking {count : Nat} (h : 0 < count) (filter : Option Nat) :
    lowerAsk (.asking count filter) = if count = 1 then .ready else .asking (count - 1) filter :=
  if_congr (by omega) rfl rfl

theorem carry_of_not_asking {record : List Byte} {x : Option Service}
    (h : ∀ f clamped stood g records, x ≠ some (.asking f clamped stood g records)) : Service.carry record x = x := by
  unfold Service.carry
  split
  · exact absurd rfl (h _ _ _ _ _)
  · rfl

theorem closeAsk_of_not_asking {s : State} {p : Port} {x : Option Service}
    (h : ∀ f clamped stood g records, x ≠ some (.asking f clamped stood g records)) : s.closeAsk p x = x := by
  unfold State.closeAsk
  split
  · exact absurd rfl (h _ _ _ _ _)
  · rfl

/-- What a pair that is chosen says of the state. -/
theorem facts_of_choose {s : State} (hdistinct : s.numbersDistinct) {c : Choice} (h : s.choose = some c) :
    s.findMsg c.cand.msg.number = some c.cand.msg ∧ c.cand.msg.copies[c.cand.index]? = some c.cand.copy
      ∧ (∃ f, c.cand.msg.phase = .filed f) ∧ c.cand.copy.idle = true ∧ s.roles.get c.port = .channel
      ∧ ∀ count filter, (s.channels.get c.port).state = .asking count filter → 0 < count := by
  obtain ⟨hopen, hmem, hcopy, hfits⟩ := mem_pairsOf_iff.mp (choose_pair hdistinct h)
  obtain ⟨hchannel, ⟨count', filter', hask', hcount⟩, -⟩ := openToGrants_iff.mp hopen
  obtain ⟨hfiled, -, hstate, -⟩ := fits_iff.mp hfits
  refine ⟨findMsg_of_mem hdistinct hmem, hcopy, hfiled, idle_iff.mpr (hstate.imp_right fun ⟨ends, h⟩ => ⟨_, ends, h⟩), hchannel,
    fun count filter hask => ?_⟩
  rw [hask] at hask'
  cases hask'; exact hcount

theorem makeGrant_behind (s : State) (c : Choice) : (s.makeGrant c).finish.behind = (s.granted c).behind := State.finish_behind _

theorem makeGrant_unit_other {s : State} {c : Choice} (hunits : (s.granted c).units = s.units) {q : Port} (hq : q ≠ c.port) :
    (s.makeGrant c).units.get q = s.units.get q := by
  rw [makeGrant_eq, State.carryGrant, State.updUnit_units, PerPort.get_set_ne _ _ hq, hunits]

/-- The record that a grant carries. -/
def State.grantedRecord (s : State) (c : Choice) : List Byte :=
  (((s.granted c).entryOf c.port c.cand.msg.number c.cand.index).map (s.granted c).recordOf).getD []

theorem makeGrant_unit {s : State} {c : Choice} (hunits : (s.granted c).units = s.units) : (s.makeGrant c).units.get c.port =
    { s.units.get c.port with service := Service.carry (s.grantedRecord c) (s.serviceOf c.port) } := by
  rw [makeGrant_eq, State.carryGrant, State.updUnit_units, PerPort.get_set_self, hunits]
  rfl

theorem rotation_of_moveRotation {s : State} {c : Choice} {m : Member} (hstep : c.step = .rotation m) :
    (s.moveRotation c).firstPtr = some m.key ∧ (s.moveRotation c).streak = some ⟨c.port, c.cand.copy.station, 1⟩
      ∧ (s.moveRotation c).tierBPtr = if m = .tierB then some c.port else s.tierBPtr := by
  simp only [State.moveRotation, hstep]
  cases m <;> simp

theorem moveRotation_of_life {s : State} {c : Choice} (hstep : c.step = .life) : s.moveRotation c = s := by
  simp only [State.moveRotation, hstep]

/-- Settles O21. -/
theorem grantHandsTheCopyOver : Obligations.GrantHandsTheCopyOver := by
  intro s c count filter hs hdistinct hchoose hask n deadline record
  obtain ⟨hm, hcopy, hfiled, hidle, hchannel, hcount⟩ := facts_of_choose hdistinct hchoose
  have heq := granted_eq hm hcopy hidle hchannel
  have hunits : (s.granted c).units = s.units := by rw [heq]
  have hbook : (s.granted c).book = s.book := by rw [heq]
  have hchannels : (s.granted c).channels = s.askLowered c.port := by rw [heq]
  have hstatus : (s.granted c).status = s.statusWith .granted c.port := by rw [heq]
  have hlists : (s.granted c).lists = s.lists.set c.port (s.lists.get c.port ++ [⟨n, c.cand.index, deadline, 0, false⟩]) := by
    rw [heq]; rfl
  have hfind (k : Nat) : (s.granted c).findMsg k = if k = n
      then some { c.cand.msg with copies := c.cand.msg.copies.set c.cand.index { c.cand.copy with state := some (.taken c.port) } }
      else s.findMsg k := by
    rw [← findMsg_handOver hm hcopy hfiled c.port c.cand.msg.prec k, heq]; rfl
  have hframe : (s.granted c).behind = { s with
      store := (s.granted c).store, lists := (s.granted c).lists, channels := (s.granted c).channels, status := (s.granted c).status
      firstPtr := (s.granted c).firstPtr, tierBPtr := (s.granted c).tierBPtr, streak := (s.granted c).streak }.behind := by
    rw [heq]
  clear heq
  have hrecord (hnone : s.entryOf c.port n c.cand.index = none) : s.grantedRecord c = record :=
    record_of_handedOver c.port (by rw [hfind, if_pos rfl]) (List.getElem?_eq_some_iff.mp hcopy).1
      (by rw [hlists, PerPort.get_set_self]) hbook hnone
  obtain ⟨hfirst, htierB, hstreak⟩ := granted_rotation s c
  have hbehind := makeGrant_behind s c
  have hunit := makeGrant_unit hunits
  have hother {q : Port} (hq : q ≠ c.port) := makeGrant_unit_other hunits hq
  have hline (q : Port) := State.finish_unit (s.makeGrant c) q
  have houtputs := State.finish_outputs (s.makeGrant c)
  have hclose (q : Port) := State.finish_closeAsk (s.makeGrant c) q
  have hpair (q : Port) := State.finish_hasPair (s.makeGrant c) q
  refine ⟨_, exec_grant hs hchoose, ?_⟩
  generalize (s.makeGrant c).finish = t at *
  generalize s.granted c = u at *
  have htfind (k : Nat) : t.findMsg k = u.findMsg k := (of_behind (fun x => x.findMsg k) hbehind :)
  refine ⟨fun k hk => ?_, ?_, ?_, ?_, ?_, fun m hstep => ?_, fun hstep => ?_, ?_, fun q hq => ?_,
    houtputs, fun f clamped stood g records hnone hservice => ?_, fun hservice => ?_⟩
  · rw [htfind, hfind, if_neg hk]
  · rw [htfind, hfind, if_pos rfl]
  · exact (of_behind State.lists hbehind :).trans hlists
  · refine ((of_behind State.channels hbehind :).trans hchannels).trans ?_
    rw [State.askLowered, hask, lowerAsk_asking (hcount _ _ hask)]
  · exact (of_behind State.status hbehind :).trans hstatus
  · obtain ⟨h1, h2, h3⟩ := rotation_of_moveRotation (s := s) hstep
    exact ⟨(of_behind State.firstPtr hbehind :).trans (hfirst.trans h1), (of_behind State.streak hbehind :).trans (hstreak.trans h2),
      (of_behind State.tierBPtr hbehind :).trans (htierB.trans h3)⟩
  · rw [moveRotation_of_life hstep] at hfirst htierB hstreak
    exact ⟨(of_behind State.firstPtr hbehind :).trans hfirst, (of_behind State.tierBPtr hbehind :).trans htierB,
      (of_behind State.streak hbehind :).trans hstreak⟩
  · have h1 : t.store = u.store := (of_behind State.store hbehind :)
    have h2 : t.lists = u.lists := (of_behind State.lists hbehind :)
    have h3 : t.channels = u.channels := (of_behind State.channels hbehind :)
    have h4 : t.status = u.status := (of_behind State.status hbehind :)
    have h5 : t.firstPtr = u.firstPtr := (of_behind State.firstPtr hbehind :)
    have h6 : t.tierBPtr = u.tierBPtr := (of_behind State.tierBPtr hbehind :)
    have h7 : t.streak = u.streak := (of_behind State.streak hbehind :)
    rw [hbehind, h1, h2, h3, h4, h5, h6, h7]
    exact hframe
  · rw [State.lineFollows, hline, hclose, State.serviceOf, hother hq]
    rfl
  · rw [hline, State.serviceOf, hunit, hservice, hrecord hnone]
    have hfields : askFields clamped stood g (records ++ [record])
        = be8 clamped ++ be8 stood ++ beEntry g ++ be8 (records.length + 1) ++ records.flatten ++ record := by
      simp [askFields]
    rw [Service.carry, State.closeAsk, hpair, hfields]
    split <;> rfl
  · rw [hline, State.serviceOf, hunit, carry_of_not_asking hservice, closeAsk_of_not_asking hservice]
    rfl

end Sys2Proof.Machine
end

section
/-! PROOF. TAKE LOCAL (R142, R143). -/
namespace Sys2Proof.Machine

open Sys2Proof.Ranking Sys2Proof.Pairing

theorem mem_localCands {s : State} {x : Cand} : x ∈ s.localCands ↔ x.msg ∈ s.store ∧ x.msg.copies[x.index]? = some x.copy
    ∧ (∃ f, x.msg.phase = .filed f) ∧ x.copy.station = 0 ∧ x.copy.state = some .waiting := by
  simp only [State.localCands, mem_cands_iff, Bool.and_eq_true, isFiled_iff, Copy.isLocal, beq_iff_eq, and_assoc]

/-- A local candidate that none stands before is the one that is taken. -/
theorem best_localCands {s : State} {p : Port} (hdistinct : s.numbersDistinct) {x : Cand} (hx : x ∈ s.localCands)
    (hbest : ∀ y ∈ s.localCands, standsBefore (s.rankOf p y) y (s.rankOf p x) x = false) : s.best p s.localCands = some x := by
  obtain ⟨y, hy⟩ := Option.ne_none_iff_exists'.mp fun h : s.best p s.localCands = none =>
    List.ne_nil_of_mem hx (best_eq_none_iff.mp h)
  obtain ⟨hmem, hleast⟩ := best_least hy
  have hle : orderKey (atRank s p x) ≤ orderKey (atRank s p y) := by
    have := hbest y hmem
    rw [Bool.eq_false_iff, ne_eq, standsBefore_rankOf_iff] at this
    exact not_lt.mp this
  obtain ⟨hnumber, hindex⟩ := same_copy_of_orderKey_eq (le_antisymm hle (hleast x hx))
  obtain ⟨hxm, hxc, -⟩ := mem_localCands.mp hx
  obtain ⟨hym, hyc, -⟩ := mem_localCands.mp hmem
  rw [hy, cand_eq_of_same hdistinct hxm hxc hym hyc hnumber hindex]

/-- Settles O44. -/
theorem takeLocalHandsOverTheHighestRanked : Obligations.TakeLocalHandsOverTheHighestRanked := by
  intro p tag s hfree hdesk hdistinct answered candidate
  have hcand (m : Message) (i : Nat) (c : Copy) : (⟨m, i, c⟩ : Cand) ∈ s.localCands ↔ candidate m i c := mem_localCands
  have hrole : mayUse (s.roles.get p) 0x28 = true := by rcases hdesk with h | h <;> rw [h] <;> rfl
  have answer {u : State} {r : Result} {fields : List Byte} (h : serveTakeLocal p s = u.answer r fields) (hu : u.units = s.units) :
      ∃ t, exec (.takeLocal p tag) s = .next t ∧ t.behind = u.behind ∧ t.answers s p ⟨0x28, tag, []⟩ r fields :=
    answered_of_serve (i := .takeLocal p tag) rfl hfree rfl hrole rfl h hu
  refine ⟨fun hfull => ?_, fun hroom => ⟨fun hnone => ?_, ?_⟩⟩
  · obtain ⟨t, hexec, hbehind, hanswers⟩ := answer (u := s) (if_pos hfull) rfl
    exact ⟨t, ⟨hexec, hanswers⟩, hbehind⟩
  · have hempty : s.localCands = [] := List.eq_nil_iff_forall_not_mem.mpr fun x hx => hnone x.msg x.index x.copy ((hcand ..).mp hx)
    have hserve : serveTakeLocal p s = s.answer .none_ := by
      rw [serveTakeLocal, if_neg (Nat.not_le.mpr hroom), best_eq_none_iff.mpr hempty]
    obtain ⟨t, hexec, hbehind, hanswers⟩ := answer hserve rfl
    exact ⟨t, ⟨hexec, hanswers⟩, hbehind⟩
  · intro m i c hc hbest hnone deadline e
    have hbest : s.best p s.localCands = some ⟨m, i, c⟩ :=
      best_localCands hdistinct ((hcand m i c).mpr hc) fun y hy => hbest y.msg y.index y.copy ((hcand ..).mp hy)
    obtain ⟨hmem, hcopy, hfiled, hlocal, hwaiting⟩ := hc
    have hm := findMsg_of_mem hdistinct hmem
    have hidle : c.idle = true := idle_iff.mpr (.inl hwaiting)
    have heq := handOver_eq hm hcopy hidle p m.prec
    have hfind := findMsg_handOver hm hcopy hfiled p m.prec
    have hserve : serveTakeLocal p s = (s.handOver p m.number i m.prec).answer .ok
        ((((s.handOver p m.number i m.prec).entryOf p m.number i).map (s.handOver p m.number i m.prec).recordOf).getD []) := by
      rw [serveTakeLocal, if_neg (Nat.not_le.mpr hroom), hbest]
    have hrecord := record_of_handedOver p (t := s.handOver p m.number i m.prec) (deadline := deadline) (by rw [hfind, if_pos rfl])
      (List.getElem?_eq_some_iff.mp hcopy).1 (by rw [heq]; exact PerPort.get_set_self ..) (by rw [heq]) hnone
    rw [hrecord, hlocal] at hserve
    obtain ⟨t, hexec, hbehind, hanswers⟩ := answer hserve (by rw [heq])
    have htfind (k : Nat) : t.findMsg k = _ := (of_behind (fun x => x.findMsg k) hbehind :).trans (hfind k)
    have hlists : t.lists = s.lists.set p (s.lists.get p ++ [e]) := (of_behind State.lists hbehind :).trans (by rw [heq]; rfl)
    have hstore : t.store = (s.handOver p m.number i m.prec).store := (of_behind State.store hbehind :)
    refine ⟨t, ⟨hexec, hanswers⟩, ?_, fun k hk => ?_, hlists, ?_⟩
    · rw [htfind, if_pos rfl]
    · rw [htfind, if_neg hk]
    · rw [hbehind, hstore, hlists, heq]
      rfl

end Sys2Proof.Machine
end

section
/-! PROOF. A copy that leaves its list: the change, whole (R5, R57, R63, R70), and what a report does besides (R56, R85, R128, R133). -/
namespace Sys2Proof.Machine

/-! ### The change of a copy, whole -/

theorem rephase_copies (now : Nat) (m : Message) : (Message.rephase now m).copies = m.copies := by
  unfold Message.rephase; split <;> (try split) <;> rfl

theorem withCopy_copies (now i : Nat) (d : Copy) (m : Message) : (Message.withCopy now i d m).copies = m.copies.set i d := rephase_copies ..

/-- The lists without the entry of a copy, if some port holds it. -/
def State.listsLeft (s : State) (n i : Nat) (c : Copy) : PerPort (List Entry) :=
  match c.holder with
  | some j => s.listsWithout j n i
  | none => s.lists

/-- The status sets with COPY_FAILED raised at the consoles if a copy enters FAILED (R70). -/
def State.statusIfFails (s : State) (c d : Copy) : PerPort EventSet :=
  if d.state = some .failed ∧ c.state ≠ some .failed then s.statusAt .copyFailed s.isConsole else s.status

section
variable {s : State} {n i : Nat} {c : Copy}

theorem changeCopy_lists_left (h : s.copyAt n i = some c) {f : Copy → Copy} (hd : (f c).holder = none) :
    (s.changeCopy n i f).lists = s.listsLeft n i c := by
  rw [changeCopy_lists h, State.followHolder, State.listsLeft]
  cases hc : c.holder with
  | none => rfl
  | some j => simp [hd, State.dropEntry, State.listsWithout, Entry.names]

/-- A change after which no port holds the copy, but for the store. -/
theorem changeCopy_eq (h : s.copyAt n i = some c) {f : Copy → Copy} (hd : (f c).holder = none) : s.changeCopy n i f = { s with
    store := (s.changeCopy n i f).store
    book := s.book.modify c.station (Option.map (Station.recount c.live (f c).live))
    lists := s.listsLeft n i c, status := s.statusIfFails c (f c) } := by
  conv_lhs => rw [State.changeCopy_frame, changeCopy_book h, changeCopy_lists_left h hd, changeCopy_status h]
  rfl

theorem copyAt_changeCopy (h : s.copyAt n i = some c) (f : Copy → Copy) (k j : Nat) :
    (s.changeCopy n i f).copyAt k j = if k = n ∧ j = i then some (f c) else s.copyAt k j := by
  unfold State.copyAt at *
  rw [findMsg_changeCopy h f]
  obtain ⟨m, hm, hc⟩ := Option.bind_eq_some_iff.mp h
  by_cases hk : k = n
  · subst hk
    rw [if_pos rfl, hm, Option.map_some, Option.bind_some, Option.bind_some, withCopy_copies, List.getElem?_set]
    by_cases hj : i = j
    · rw [if_pos hj, if_pos (List.getElem?_eq_some_iff.mp hc).1, if_pos ⟨rfl, hj.symm⟩]
    · rw [if_neg hj, if_neg fun h => hj h.2.symm]
  · rw [if_neg hk, if_neg fun h => hk h.1]

end

theorem holder_eq_none_iff {c : Copy} : c.holder = none ↔ ∀ p, c.state ≠ some (.taken p) ∧ c.state ≠ some (.withdrawing p) := by
  unfold Copy.holder
  cases c.state with
  | none => simp
  | some x => cases x <;> simp [CopyState.holder]

theorem holder_eq_some_iff {c : Copy} {p : Port} : c.holder = some p ↔ c.state = some (.taken p) ∨ c.state = some (.withdrawing p) := by
  unfold Copy.holder
  cases c.state with
  | none => simp
  | some x => cases x <;> simp [CopyState.holder]

theorem live_of_holder {c : Copy} {p : Port} (h : c.holder = some p) : c.live = true := by
  rcases holder_eq_some_iff.mp h with h | h <;> simp [Copy.live, h, CopyState.live]

theorem listsWithout_listsWithout (s : State) (p : Port) (n i : Nat) :
    (s.listsWithout p n i).set p (((s.listsWithout p n i).get p).filter fun e => !e.names n i) = s.listsWithout p n i := by
  simp [State.listsWithout, Entry.names, List.filter_filter]

/-! ### The state in which a copy enters WAITING (R112) -/

theorem entryState_cases (s : State) (prec : Prec) (c : Copy) :
    s.entryState prec c = .waiting ∨ ∃ p ends, s.entryState prec c = .heldFor p ends ∧ s.mayHold p = true := by
  unfold State.entryState
  split
  · exact .inl rfl
  next a _ =>
    split
    next h =>
      simp only [Bool.and_eq_true] at h
      exact .inr ⟨_, _, rfl, h.1.1.2⟩
    next => exact .inl rfl

theorem entryState_holder (s : State) (prec : Prec) (c : Copy) : (s.entryState prec c).holder = none := by
  rcases entryState_cases s prec c with h | ⟨p, ends, h, -⟩ <;> rw [h] <;> rfl

theorem entryState_congr {s t : State} (hstation : ∀ e, t.station e = s.station e) (hclock : t.clock = s.clock)
    (hdispatch : t.dispatch = s.dispatch) (hhold : ∀ k, t.mayHold k = s.mayHold k) (prec : Prec) (c : Copy) :
    t.entryState prec c = s.entryState prec c := by
  unfold State.entryState
  rw [hstation, hclock, hdispatch]
  cases (s.station c.station).bind Station.affinity with
  | none => rfl
  | some a => simp only [hhold]

/-! ### The effects of a report on the reporting port and the book -/

/-- The channel table with the lapse count of one channel 0 (R137). -/
def State.accounted (s : State) (p : Port) : PerPort Channel :=
  if s.roles.get p = .channel then s.channels.set p { s.channels.get p with lapseCount := 0 } else s.channels

theorem accountGiven_eq {s : State} {p : Port} (h : s.roles.get p = .channel → s.admin.get p ≠ .step) :
    s.accountGiven p = { s with channels := s.accounted p } := by
  unfold State.accountGiven State.accounted
  by_cases hrole : s.roles.get p = .channel
  · rw [if_pos (isChannel_iff.mpr hrole), if_pos hrole]
    exact if_neg (by simpa using h hrole)
  · rw [if_neg (by rw [isChannel_iff]; exact hrole), if_neg hrole]

theorem accounted_state (s : State) (p k : Port) : ((s.accounted p).get k).state = (s.channels.get k).state := by
  unfold State.accounted
  split
  · rw [PerPort.get_set]
    split
    next h => rw [h]
    next => rfl
  · rfl

/-- What a reported outcome does to the station's entry (R56). -/
def creditOf (now : Nat) (p : Port) (o : ReportOutcome) (st : Station) : Station :=
  match o with
  | .delivered => { st with grades := st.grades.set p ⟨max 2 (st.grades.get p).value, now⟩, affinity := some ⟨p, now⟩ }
  | .noContact => { st with grades := st.grades.set p ⟨(st.grades.get p).value - 1, now⟩ }
  | .relayed | .returned => st

theorem bookOutcome_eq (s : State) (p : Port) (e : Nat) (o : ReportOutcome) : s.bookOutcome p e o = { s with
    book := s.book.modify e (Option.map fun st => if s.roles.get p = .channel ∧ e ≠ 0 then creditOf s.clock p o st else st) } := by
  have hnone {f : Station → Station} (hf : ∀ st, f st = st) : s = { s with book := s.book.modify e (Option.map f) } := by
    rw [modify_map_id hf]
  have htest : (s.isChannel p && e != 0) = true ↔ s.roles.get p = .channel ∧ e ≠ 0 := by
    rw [Bool.and_eq_true, isChannel_iff, bne_iff_ne]
  by_cases h : s.roles.get p = .channel ∧ e ≠ 0
  · simp only [if_pos h]
    cases o with
    | delivered => exact if_pos (htest.mpr h)
    | noContact => exact if_pos (htest.mpr h)
    | relayed => exact hnone fun _ => rfl
    | returned => exact hnone fun _ => rfl
  · simp only [if_neg h]
    have hsame : s.bookOutcome p e o = s := by
      cases o with
      | delivered => exact if_neg (mt htest.mp h)
      | noContact => exact if_neg (mt htest.mp h)
      | relayed => rfl
      | returned => rfl
    rw [hsame]
    exact hnone fun _ => rfl

theorem modify_modify (book : List (Option Station)) (e : Nat) (f g : Station → Station) :
    (book.modify e (Option.map f)).modify e (Option.map g) = book.modify e (Option.map fun st => g (f st)) := by
  rw [List.modify_modify_eq]
  exact congrArg (book.modify e) (funext fun o => by cases o <;> rfl)

/-- The status sets with LOCAL_WAITING raised at the desks if a local copy has come back to WAITING (R85). -/
def State.statusIfLocal (s : State) (c : Copy) : PerPort EventSet :=
  if c.station = 0 ∧ c.state = some .waiting
  then s.statusAt .localWaiting (fun q => s.roles.get q == .console || s.roles.get q == .intake) else s.status

theorem localBack_eq {s : State} {n i : Nat} {c : Copy} (h : s.copyAt n i = some c) :
    s.localBack n i = { s with status := s.statusIfLocal c } := by
  have hif : s.localBack n i = s.raiseAllIf (c.isLocal && c.state == some .waiting) .localWaiting := by rw [State.localBack, h]
  have htest : (c.isLocal && c.state == some .waiting) = true ↔ c.station = 0 ∧ c.state = some .waiting := by simp [Copy.isLocal]
  rw [hif, State.statusIfLocal]
  by_cases hc : c.station = 0 ∧ c.state = some .waiting
  · rw [htest.mpr hc, if_pos hc]
    have hraise : (s.raiseAllIf true .localWaiting).status
        = s.statusAt .localWaiting (fun q => s.roles.get q == .console || s.roles.get q == .intake) := by
      refine PerPort.ext_get fun q => ?_
      rw [raiseAllIf_status_get, State.statusAt, PerPort.get_build]
      have hroute : eventBit .localWaiting &&& routedSet (s.roles.get q)
          = if (s.roles.get q == .console || s.roles.get q == .intake) = true then eventBit .localWaiting else 0 := by
        cases s.roles.get q <;> decide
      rw [if_pos rfl, hroute]
      split <;> simp
    rw [← hraise]
    rfl
  · rw [Bool.eq_false_iff.mpr (mt htest.mp hc), if_neg hc]
    rfl

end Sys2Proof.Machine
end

section
/-! PROOF. REPORT from the holder of an entry (R56, R128, R132 to R134, R141). -/
namespace Sys2Proof.Machine

/-- The copy as the report of its holder leaves it, by the entry's mark (R133, R134). -/
def State.ownAfter (s : State) (p : Port) (m : Message) (o : ReportOutcome) (relay : Call) (withdrawing : Bool) (c : Copy) : Copy :=
  if withdrawing then s.withdrawnAfter p o c else s.takenAfter p m o relay c

theorem ownAfter_holder (s : State) (p : Port) (m : Message) (o : ReportOutcome) (relay : Call) (withdrawing : Bool) (c : Copy) :
    (s.ownAfter p m o relay withdrawing c).holder = none := by
  unfold State.ownAfter
  split
  · cases o <;> rfl
  · cases o with
    | delivered => rfl
    | relayed => rfl
    | noContact => simp only [State.takenAfter, Copy.holder]; split <;> rfl
    | returned =>
      simp only [State.takenAfter, Copy.holder, Copy.become]
      split
      · rfl
      · exact entryState_holder ..

/-- The part with the lapse count of one channel 0. -/
def State.onAccount (s : State) (p : Port) : State := { s with channels := s.accounted p }

theorem mayHold_onAccount (s : State) (p k : Port) : (s.onAccount p).mayHold k = s.mayHold k := by
  have h : ((s.onAccount p).channels.get k).state = (s.channels.get k).state := accounted_state s p k
  unfold State.mayHold
  rw [h]
  rfl

/-- Where the lapse counts alone differ, a report leaves a copy alike. -/
theorem ownAfter_accounted (s : State) (p : Port) (m : Message) (o : ReportOutcome) (relay : Call) (withdrawing : Bool) (c : Copy) :
    (s.onAccount p).ownAfter p m o relay withdrawing c = s.ownAfter p m o relay withdrawing c := by
  have hentry : (s.onAccount p).entryState m.prec c = s.entryState m.prec c :=
    entryState_congr (s := s) (t := s.onAccount p) (fun _ => rfl) rfl rfl (mayHold_onAccount s p) m.prec c
  unfold State.ownAfter
  split
  · cases o <;> rfl
  · cases o with
    | delivered => rfl
    | relayed => rfl
    | noContact => rfl
    | returned => simp only [State.takenAfter, hentry]; rfl

/-- The status sets as the report of a holder leaves them (R70, R85). -/
def State.ownStatus (s : State) (o : ReportOutcome) (c d : Copy) : PerPort EventSet :=
  if d.state = some .failed then s.statusAt .copyFailed s.isConsole
  else if o = .returned ∧ c.station = 0 ∧ d.state = some .waiting
    then s.statusAt .localWaiting (fun q => s.roles.get q == .console || s.roles.get q == .intake)
  else s.status

section
variable {s : State} {p : Port} {n i : Nat} {m : Message} {c : Copy} {e : Entry} {o : ReportOutcome} {relay : Call}

theorem ownAfter_station (withdrawing : Bool) : (s.ownAfter p m o relay withdrawing c).station = c.station := by
  unfold State.ownAfter
  split <;> cases o <;> rfl

theorem reportBack_eq {t : State} (h : t.copyAt n i = some c) : (if o == .returned then t.localBack n i else t)
    = { t with status := if o = .returned then t.statusIfLocal c else t.status } := by
  by_cases ho : o = .returned
  · rw [if_pos (beq_iff_eq.mpr ho), if_pos ho, localBack_eq h]
  · rw [if_neg (by simpa using ho), if_neg ho]

theorem ownStatus_eq {t : State} {d : Copy} (hroles : t.roles = s.roles) (hstatus : t.status = s.statusIfFails c d)
    (hstation : d.station = c.station) (hc : c.state ≠ some .failed) :
    (if o = .returned then t.statusIfLocal d else t.status) = s.ownStatus o c d := by
  have hfails : s.statusIfFails c d = if d.state = some .failed then s.statusAt .copyFailed s.isConsole else s.status := by
    rw [State.statusIfFails]; exact if_congr (and_iff_left hc) rfl rfl
  rw [State.ownStatus, State.statusIfLocal, State.statusAt, hroles, hstatus, hfails, hstation]
  by_cases hd : d.state = some .failed
  · simp [hd]
  · by_cases ho : o = .returned
    · simp only [hd, ho, if_false, if_true, true_and]
      rfl
    · simp [hd, ho]

/-- The holder's report, whole, at a channel that is not under STEP. -/
theorem ownReport_eq (hc : s.copyAt n i = some c) (hholder : c.holder = some p) (hstep : s.roles.get p = .channel → s.admin.get p ≠ .step) :
    (s.ownReport p n i m c e o relay).copyBecomes s n i (s.ownAfter p m o relay e.withdrawing c)
    ∧ s.ownReport p n i m c e o relay = { s with
        store := (s.ownReport p n i m c e o relay).store, lists := s.listsWithout p n i, channels := s.accounted p
        book := s.book.modify c.station (Option.map fun st =>
          let st := Station.recount true (s.ownAfter p m o relay e.withdrawing c).live st
          if s.roles.get p = .channel ∧ c.station ≠ 0 then creditOf s.clock p o st else st)
        counters := s.countersWith p (countOutcome o), status := s.ownStatus o c (s.ownAfter p m o relay e.withdrawing c) } := by
  set f : Copy → Copy := if e.withdrawing then (s.onAccount p).withdrawnAfter p o
    else (s.onAccount p).takenAfter p m o relay with hf
  have hfc : f c = s.ownAfter p m o relay e.withdrawing c := by
    rw [← ownAfter_accounted, State.ownAfter, hf]; split <;> rfl
  have hc' : (s.onAccount p).copyAt n i = some c := hc
  have hnone : (f c).holder = none := by rw [hfc]; exact ownAfter_holder ..
  have hreport : s.ownReport p n i m c e o relay =
      let t := (((s.onAccount p).changeCopy n i f).dropEntry p n i).bookOutcome p c.station o
      let t := t.updCounters p (countOutcome o)
      if o == .returned then t.localBack n i else t := by
    rw [State.ownReport, accountGiven_eq hstep]
    rfl
  have hcopy := (copyAt_changeCopy hc' f n i).trans (if_pos ⟨rfl, rfl⟩)
  have hbecomes := changeCopy_becomes hc' f
  obtain ⟨store, hchange⟩ : ∃ store, (s.onAccount p).changeCopy n i f = { s with
      store := store, channels := s.accounted p, lists := s.listsWithout p n i
      book := s.book.modify c.station (Option.map (Station.recount true (f c).live))
      status := (s.onAccount p).statusIfFails c (f c) } := by
    refine ⟨((s.onAccount p).changeCopy n i f).store, (changeCopy_eq hc' hnone).trans ?_⟩
    rw [live_of_holder hholder, State.listsLeft, hholder]
    rfl
  have hdrop : (s.listsWithout p n i).set p (((s.listsWithout p n i).get p).filter fun e => !e.names n i) = s.listsWithout p n i :=
    listsWithout_listsWithout ..
  rw [hchange] at hcopy hbecomes
  rw [hreport, hchange, State.dropEntry, bookOutcome_eq]
  dsimp only
  rw [hdrop, modify_modify, ← hfc]
  have hstate : c.state ≠ some .failed := by
    rcases holder_eq_some_iff.mp hholder with h | h <;> rw [h] <;> simp
  rw [reportBack_eq (c := f c) (h := ?_)]
  swap
  · exact hcopy
  refine ⟨hbecomes, ?_⟩
  rw [ownStatus_eq (s := s) (c := c) (d := f c) (hroles := ?_) (hstatus := ?_) (by rw [hfc, ownAfter_station]) hstate]
  all_goals rfl

end

theorem copyAt_of_becomes {s t : State} {n i : Nat} {c d : Copy} (h : t.copyBecomes s n i d) (hc : s.copyAt n i = some c) :
    t.copyAt n i = some d := by
  obtain ⟨m, hm, hc⟩ := Option.bind_eq_some_iff.mp hc
  rw [State.copyAt, h.2, hm, Option.map_some, Option.bind_some, rephase_copies]
  exact List.getElem?_set_self (List.getElem?_eq_some_iff.mp hc).1

theorem copyBecomes_of_findMsg {s t u : State} {n i : Nat} {d : Copy} (h : u.copyBecomes s n i d) (hfind : ∀ k, t.findMsg k = u.findMsg k) :
    t.copyBecomes s n i d := ⟨fun k hk => by rw [hfind, h.1 k hk], by rw [hfind, h.2]⟩

theorem beFlag_eq (b : Bool) : beFlag b = be8 (if b then 1 else 0) := by cases b <;> rfl

/-- Tests 1 to 4 of R132 passed: the holder's REPORT is served. -/
theorem serveReport_own {s : State} {p : Port} {number : Half} {index outcome : Byte} {relay : List Byte} {o : ReportOutcome} {m : Message}
    {c : Copy} {e : Entry} (h1 : 1 ≤ number.toNat) (h2 : number.toNat ≤ 9999) (hi : index.toNat ≤ 7) (ho : outcomeOf outcome = some o)
    (hrelay : o = .relayed → callOf relay ≠ none) (hm : s.findMsg number.toNat = some m) (hc : m.copies[index.toNat]? = some c)
    (hopen : m.phase ≠ .opened) (hlocal : c.station = 0 → o = .delivered ∨ o = .returned)
    (he : s.entryOf p number.toNat index.toNat = some e) : serveReport p number index outcome relay s =
      let t := s.ownReport p number.toNat index.toNat m c e o ((callOf relay).getD blankCall)
      t.answer .ok (t.reportFields number.toNat index.toNat ++ t.accountFields p) := by
  have hform : (c.isLocal && (o == .relayed || o == .noContact)) = false := by
    by_cases h : c.station = 0
    · rcases hlocal h with h | h <;> simp [h]
    · simp [Copy.isLocal, h]
  rw [serveReport_copy h1 h2 hi ho hrelay hm hc, isOpen_eq_false_iff.mpr hopen]
  simp only [Bool.false_eq_true, if_false, State.reportOn, hform, he]

theorem reportFields_eq {t : State} {n i : Nat} {d : Copy} (h : t.copyAt n i = some d) :
    t.reportFields n i = be8 d.code ++ be8 d.attempts ++ be8 (if d.uncertain then 1 else 0) := by
  rw [State.reportFields, h, ← beFlag_eq]

end Sys2Proof.Machine
end

section
/-! PROOF. The statement about the holder's REPORT (R56, R128, R132 to R134). -/
namespace Sys2Proof.Machine

/-- A REPORT from the holder at a channel that is not under STEP, or at a desk. -/
theorem exec_report_own {p : Port} {tag index outcome : Byte} {number : Half} {relay : List Byte} {s : State} {m : Message} {c : Copy}
    {e : Entry} {o : ReportOutcome} (hfree : s.freeAt p = true) (hlength : relay.length = 7) (h1 : 1 ≤ number.toNat)
    (h2 : number.toNat ≤ 9999) (hi : index.toNat ≤ 7) (ho : outcomeOf outcome = some o) (hrelay : o = .relayed → callOf relay ≠ none)
    (hm : s.findMsg number.toNat = some m) (hc : m.copies[index.toNat]? = some c) (hopen : m.phase ≠ .opened)
    (hlocal : c.station = 0 → o = .delivered ∨ o = .returned) (he : s.entryOf p number.toNat index.toNat = some e)
    (hholder : c.holder = some p) (hstep : s.roles.get p = .channel → s.admin.get p ≠ .step) {after : Copy}
    (hafter : s.ownAfter p m o ((callOf relay).getD blankCall) e.withdrawing c = after) :
    ∃ t, exec (.report p tag number index outcome relay) s = .next t
      ∧ t.copyBecomes s number.toNat index.toNat after
      ∧ t.behind = { s with
          store := t.store, lists := s.listsWithout p number.toNat index.toNat, channels := s.accounted p
          book := s.book.modify c.station (Option.map fun st =>
            let st := Station.recount true after.live st
            if s.roles.get p = Role.channel ∧ c.station ≠ 0 then creditOf s.clock p o st else st)
          counters := s.countersWith p (countOutcome o), status := s.ownStatus o c after }.behind
      ∧ t.answers s p ⟨0x18, tag, hiByte number :: loByte number :: index :: outcome :: relay⟩ .ok
          (be8 after.code ++ be8 after.attempts ++ be8 (if after.uncertain then 1 else 0)
            ++ if s.roles.get p = Role.channel then be8 0 ++ be8 (adminCode (s.admin.get p)) else [0xFF, 0xFF]) := by
  have hat : s.copyAt number.toNat index.toNat = some c := by rw [copyAt_of_findMsg hm, hc]
  obtain ⟨hbecomes, heq⟩ := ownReport_eq (m := m) (e := e) (o := o) (relay := (callOf relay).getD blankCall) hat hholder hstep
  have hserve := serveReport_own h1 h2 hi ho hrelay hm hc hopen hlocal he
  rw [hafter] at hbecomes heq
  dsimp only at hserve
  generalize s.ownReport p number.toNat index.toNat m c e o ((callOf relay).getD blankCall) = u at *
  have hreport := reportFields_eq (copyAt_of_becomes hbecomes hat)
  have haccount : u.accountFields p = if s.roles.get p = .channel then be8 0 ++ be8 (adminCode (s.admin.get p)) else [0xFF, 0xFF] := by
    have hroles : u.roles = s.roles := by rw [heq]
    have hchannels : u.channels = s.accounted p := by rw [heq]
    have hadmin : u.admin = s.admin := by rw [heq]
    have hchannel : u.isChannel p = true ↔ s.roles.get p = .channel := by rw [isChannel_iff, hroles]
    unfold State.accountFields
    by_cases hrole : s.roles.get p = .channel
    · rw [if_pos hrole, if_pos (hchannel.mpr hrole), hchannels, hadmin, State.accounted, if_pos hrole, PerPort.get_set_self]
    · rw [if_neg hrole, if_neg (mt hchannel.mp hrole)]
      rfl
  rw [hreport, haccount] at hserve
  obtain ⟨t, hexec, hbehind, hanswers⟩ := answered_of_serve (i := .report p tag number index outcome relay) rfl hfree rfl
    (mayUse_of_hears (hears_of_freeAt hfree) (kind := 0x18) (by decide)) (by simp [hlength]; rfl) hserve (by rw [heq])
  have hstore : t.store = u.store := (of_behind State.store hbehind :)
  refine ⟨t, hexec, copyBecomes_of_findMsg hbecomes fun k => (of_behind (fun x => x.findMsg k) hbehind :), ?_, hanswers⟩
  rw [hbehind, heq, hstore]

/-- The part with a channel under HOLD and the holds for it ended (R115, R127). -/
def State.toHold (s : State) (p : Port) : State := { s.releaseHolds p with admin := s.admin.set p .hold }

theorem accountGiven_step {s : State} {p : Port} (hrole : s.roles.get p = .channel) (hstep : s.admin.get p = .step) :
    s.accountGiven p = (s.toHold p).accountGiven p := by
  have hchannel : (s.toHold p).isChannel p = true := isChannel_iff.mpr hrole
  have hadmin : ((s.toHold p).admin.get p == .step) = false := by rw [State.toHold, PerPort.get_set_self]; rfl
  unfold State.accountGiven
  rw [if_pos (isChannel_iff.mpr hrole), if_pos hchannel]
  simp only [State.updChannel_admin, hstep, beq_self_eq_true, if_true, hadmin, Bool.false_eq_true, if_false]
  rfl

/-- Under STEP the holder's REPORT does what it does with the mode at HOLD and the holds for the channel ended (R128). -/
theorem ownReport_step {s : State} {p : Port} {n i : Nat} {m m' : Message} {c : Copy} {e : Entry} {o : ReportOutcome} {relay : Call}
    (hprec : m'.prec = m.prec) (hrole : s.roles.get p = .channel) (hstep : s.admin.get p = .step) :
    s.ownReport p n i m c e o relay = (s.toHold p).ownReport p n i m' c e o relay := by
  have htaken (t : State) : t.takenAfter p m' o relay = t.takenAfter p m o relay := by
    funext c; unfold State.takenAfter; rw [hprec]
  unfold State.ownReport
  rw [accountGiven_step hrole hstep]
  simp only [htaken]

/-- The copy of the obligation is the copy as the report of its holder leaves it. -/
theorem ownAfter_eq {s : State} {p : Port} {m : Message} {c : Copy} {o : ReportOutcome} {relay : List Byte} {withdrawing : Bool} :
    (o = .relayed → callOf relay ≠ none) → s.ownAfter p m o ((callOf relay).getD blankCall) withdrawing c = (match o with
       | .delivered => { c with state := some (.delivered p s.clock withdrawing), uncertain := false }
       | .relayed => if withdrawing then { c with state := some .cancelled }
           else { c with state := some (.relayed p s.clock false ((callOf relay).getD [])), uncertain := false }
       | .noContact => if withdrawing then { c with state := some .cancelled }
           else { c with
             attempts := min 15 (c.attempts + 1)
             state := some (if s.handOff.limits.get m.prec ≤ min 15 (c.attempts + 1) then .failed else .waiting) }
       | .returned => if withdrawing then { c with state := some .cancelled }
           else { c with state := some (if s.handOff.limits.get m.prec ≤ c.attempts then .failed else s.entryState m.prec c) }) := by
  intro hrelay
  cases o with
  | delivered => cases withdrawing <;> rfl
  | relayed =>
    obtain ⟨call, hcall⟩ := Option.ne_none_iff_exists'.mp (hrelay rfl)
    rw [hcall]
    cases withdrawing <;> rfl
  | noContact => cases withdrawing <;> rfl
  | returned => cases withdrawing <;> rfl

/-- A message with its holds for a channel ended (R115). -/
def Message.release (k : Port) (m : Message) : Message :=
  { m with copies := m.copies.map fun c => if c.heldFor k then c.become .waiting else c }

theorem findMsg_releaseHolds (s : State) (k : Port) (n : Nat) : (s.releaseHolds k).findMsg n = (s.findMsg n).map (Message.release k) := by
  simp only [State.findMsg, State.releaseHolds, List.find?_map]
  rfl

/-- A frame that passes the tests of decoding is served. -/
theorem decodeTests_served {s : State} {p : Port} {f : Frame} (hkind : isRequestKind f.kind = true)
    (hrole : mayUse (s.roles.get p) f.kind = true) (hlength : fieldLengthOk f.kind f.fields.length = true) (serve : State → State × Answer) :
    s.decodeTests p f serve = serve s := by
  simp only [State.decodeTests, hkind, hrole, hlength, Bool.not_true, Bool.false_eq_true, if_false]

/-- Two parts whose owning block serves a request alike take it alike. -/
theorem exec_congr_of_serve {i : Instr} {p : Port} {f : Frame} {s t : State} (hi : i.toFrame = some (p, f)) (hs : s.freeAt p = true)
    (ht : t.freeAt p = true) (hkind : isRequestKind f.kind = true) (hrole : mayUse (s.roles.get p) f.kind = true)
    (hroles : t.roles.get p = s.roles.get p) (hlength : fieldLengthOk f.kind f.fields.length = true)
    (h : serveRequest i s = serveRequest i t) : exec i s = exec i t := by
  rw [exec_request hi, exec_request hi, submit_free hs, submit_free ht, State.intoService, State.intoService,
    decodeTests_served hkind hrole hlength, decodeTests_served hkind (by rw [hroles]; exact hrole) hlength, h]

/-- Settles O46. -/
theorem ownReportClosesTheEntry : Obligations.OwnReportClosesTheEntry := by
  constructor
  · intro p tag index outcome number relay s m c e o hfree hlength h1 h2 hi ho hrelay hm hc hopen hlocal he hstate hstep n i limit after station
    have hholder : c.holder = some p := by
      rw [holder_eq_some_iff, hstate]; cases e.withdrawing <;> simp
    have hafter : s.ownAfter p m o ((callOf relay).getD blankCall) e.withdrawing c = after := ownAfter_eq hrelay
    obtain ⟨t, hexec, hbecomes, hbehind, hanswers⟩ :=
      exec_report_own (tag := tag) hfree hlength h1 h2 hi ho hrelay hm hc hopen hlocal he hholder hstep hafter
    have hlists : t.lists = _ := (of_behind State.lists hbehind :)
    have hbook : t.book = _ := (of_behind State.book hbehind :)
    have hchannels : t.channels = _ := (of_behind State.channels hbehind :)
    have hcounters : t.counters = _ := (of_behind State.counters hbehind :)
    have hstatus : t.status = s.ownStatus o c after := (of_behind State.status hbehind :)
    refine ⟨t, hexec, hbecomes, hlists, ?_, hchannels, ?_, fun hfailed => ?_, fun hfailed hreturned hlocal hwaiting => ?_, fun hfailed hno => ?_,
      ?_, hanswers⟩
    · refine hbook.trans (congrArg (fun f => s.book.modify c.station (Option.map f)) (funext fun st => ?_))
      have hcount : Station.recount true after.live st = if after.live then st else { st with waiting := st.waiting - 1 } := by
        cases after.live <;> rfl
      rw [hcount]
      cases o <;> rfl
    · refine hcounters.trans (congrArg (s.countersWith p) (funext fun k => ?_))
      cases o <;> rfl
    · rw [hstatus, State.ownStatus, if_pos hfailed]; rfl
    · rw [hstatus, State.ownStatus, if_neg hfailed, if_pos ⟨hreturned, hlocal, hwaiting⟩]
    · rw [hstatus, State.ownStatus, if_neg hfailed, if_neg hno]
    · rw [hlists, hbook, hchannels, hcounters, hstatus]
      exact hbehind
  · intro p tag index outcome number relay s m c e o hfree hlength h1 h2 hi ho hrelay hm hc hopen hlocal he hholder hrole hstep
    have hfind := (findMsg_releaseHolds s p number.toNat).trans (congrArg (Option.map (Message.release p)) hm)
    have hcopy : (m.release p).copies[index.toNat]? = some c := by
      have hkept : c.heldFor p = false := by
        rcases holder_eq_some_iff.mp hholder with h | h <;> simp [Copy.heldFor, h]
      rw [Message.release, List.getElem?_map, hc, Option.map_some, hkept]
      rfl
    have hserve : serveReport p number index outcome relay s = serveReport p number index outcome relay (s.toHold p) := by
      rw [serveReport_own h1 h2 hi ho hrelay hm hc hopen hlocal he,
        serveReport_own (s := s.toHold p) h1 h2 hi ho hrelay hfind hcopy hopen hlocal he, ownReport_step (m := m) (m' := m.release p) rfl hrole hstep]
    exact exec_congr_of_serve (i := .report p tag number index outcome relay) rfl hfree hfree rfl
      (mayUse_of_hears (hears_of_freeAt hfree) (kind := 0x18) (by decide)) rfl (by simp [hlength]; rfl) hserve

end Sys2Proof.Machine
end

section
/-! PROOF. A late REPORT (R56, R135). -/
namespace Sys2Proof.Machine

/-! ### Status sets, port by port -/

theorem statusWith_get (s : State) (k : EventKind) (p q : Port) :
    (s.statusWith k p).get q = s.status.get q ||| if q = p then eventBit k else 0 := by
  rw [State.statusWith, PerPort.get_set]
  split
  next h => rw [h]
  next => simp

theorem statusIfFails_get (s : State) (c d : Copy) (q : Port) : (s.statusIfFails c d).get q = s.status.get q
    ||| if d.state = some .failed ∧ c.state ≠ some .failed ∧ s.roles.get q = .console then eventBit .copyFailed else 0 := by
  unfold State.statusIfFails State.statusAt State.isConsole
  by_cases h : d.state = some .failed ∧ c.state ≠ some .failed
  · rw [if_pos h]
    by_cases hq : s.roles.get q = .console <;> simp [h, hq]
  · rw [if_neg h, if_neg fun h' => h ⟨h'.1, h'.2.1⟩]
    simp

theorem statusIfLocal_get (s : State) (c : Copy) (q : Port) : (s.statusIfLocal c).get q = s.status.get q
    ||| if c.station = 0 ∧ c.state = some .waiting ∧ (s.roles.get q = .console ∨ s.roles.get q = .intake)
      then eventBit .localWaiting else 0 := by
  unfold State.statusIfLocal State.statusAt
  by_cases h : c.station = 0 ∧ c.state = some .waiting
  · rw [if_pos h, PerPort.get_build]
    by_cases hq : s.roles.get q = .console ∨ s.roles.get q = .intake
    · rw [if_pos (by simpa using hq), if_pos ⟨h.1, h.2, hq⟩]
    · rw [if_neg (by simpa using hq), if_neg fun h' => hq h'.2.2]
      simp
  · rw [if_neg h, if_neg fun h' => h ⟨h'.1, h'.2.1⟩]
    simp

theorem routed_withdrawn {r : Role} (h : r ≠ .off) : eventBit .withdrawn &&& routedSet r = eventBit .withdrawn := by
  cases r with
  | off => exact absurd rfl h
  | console | intake | channel => decide

/-! ### The late report -/

/-- The status sets with a holder told by WITHDRAWN, if a port holds the copy. -/
def State.statusIfHeld (s : State) (c : Copy) : PerPort EventSet :=
  match c.holder with
  | some j => (s.raiseAt .withdrawn j).status
  | none => s.status

theorem lateAfter_holder (s : State) (p : Port) (o : ReportOutcome) (relay : Call) (c : Copy) : (s.lateAfter p o relay c).holder = none := by
  unfold State.lateAfter Copy.holder
  dsimp only
  by_cases h : (o == .relayed) = true
  · rw [if_pos h]; rfl
  · rw [if_neg h]; rfl

theorem lateAfter_ends (s : State) (p : Port) (o : ReportOutcome) (relay : Call) (c : Copy) :
    (s.lateAfter p o relay c).live = false ∧ (s.lateAfter p o relay c).state ≠ some .failed := by
  unfold State.lateAfter Copy.live
  dsimp only
  by_cases h : (o == .relayed) = true
  · rw [if_pos h]; exact ⟨rfl, by simp⟩
  · rw [if_neg h]; exact ⟨rfl, by simp⟩

theorem lateReport_eq {s : State} {p : Port} {n i : Nat} {c : Copy} {o : ReportOutcome} {relay : Call} (hc : s.copyAt n i = some c)
    (hlive : c.live = true) :
    (s.lateReport p n i c o relay).copyBecomes s n i (s.lateAfter p o relay c)
    ∧ s.lateReport p n i c o relay = { s with
        store := (s.lateReport p n i c o relay).store, lists := s.listsLeft n i c, status := s.statusIfHeld c
        book := s.book.modify c.station (Option.map fun st =>
          if s.roles.get p = Role.channel ∧ c.station ≠ 0 then creditOf s.clock p o { st with waiting := st.waiting - 1 }
          else { st with waiting := st.waiting - 1 })
        counters := s.countersWith p (countOutcome o) } := by
  have hbecomes := changeCopy_becomes hc (s.lateAfter p o relay)
  obtain ⟨hdone, hfailed⟩ := lateAfter_ends s p o relay c
  obtain ⟨store, hchange⟩ : ∃ store, s.changeCopy n i (s.lateAfter p o relay) = { s with
      store := store, lists := s.listsLeft n i c, book := s.book.modify c.station (Option.map (Station.recount true false)) } := by
    refine ⟨(s.changeCopy n i (s.lateAfter p o relay)).store, (changeCopy_eq hc (lateAfter_holder ..)).trans ?_⟩
    rw [hlive, hdone, State.statusIfFails, if_neg fun h => hfailed h.1]
  rw [hchange] at hbecomes
  unfold State.lateReport State.statusIfHeld
  rw [hchange]
  cases hholder : c.holder with
  | none =>
    dsimp only
    rw [bookOutcome_eq, modify_modify]
    exact ⟨hbecomes, rfl⟩
  | some j =>
    dsimp only
    rw [bookOutcome_eq, State.raiseAt, State.raiseWhere_frame]
    dsimp only
    rw [modify_modify]
    exact ⟨hbecomes, rfl⟩

/-- Settles O47. -/
theorem lateReportIsAccepted : Obligations.LateReportIsAccepted := by
  intro p tag index outcome number relay s m c hfree hlength h1 h2 hi houtcome hm hc hopen hentry hrole hlive n i cancelled after
  have hat : s.copyAt n i = some c := by rw [copyAt_of_findMsg hm]; exact hc
  obtain ⟨o, ho⟩ := outcomeOf_isSome (b := outcome) (by omega)
  obtain ⟨hdelivered, hrelayed, hcontact, hreturned⟩ := outcomeOf_eq_some ho
  have hrelay : o = .relayed → callOf relay ≠ none := fun h => by
    have := hrelayed.mpr h
    rcases houtcome with h' | ⟨-, h', -⟩
    · omega
    · exact h'
  have hlocal : o = .relayed → c.station ≠ 0 := fun h => by
    have := hrelayed.mpr h
    rcases houtcome with h' | ⟨-, -, h'⟩
    · omega
    · exact h'
  have hcases : o = .delivered ∨ o = .relayed := by
    rcases houtcome with h | ⟨h, -, -⟩
    · exact .inl (hdelivered.mp h)
    · exact .inr (hrelayed.mp h)
  have hafter : s.lateAfter p o ((callOf relay).getD blankCall) c = after := by
    rcases hcases with rfl | rfl
    · have hzero := hdelivered.mpr rfl
      simp only [after, hzero, if_true]
      rfl
    · have hzero : outcome.toNat ≠ 0 := by rw [hrelayed.mpr rfl]; decide
      obtain ⟨call, hcall⟩ := Option.ne_none_iff_exists'.mp (hrelay rfl)
      simp only [after, if_neg hzero, hcall]
      rfl
  have hform : (c.isLocal && (o == .relayed || o == .noContact)) = false := by
    rcases hcases with rfl | rfl
    · simp
    · simp [Copy.isLocal, hlocal rfl]
  have hlate : s.lateRole p c = true := by
    have hoff := Sys2Proof.PortUnit.role_ne_off_of_hears (hears_of_freeAt hfree)
    unfold State.lateRole Copy.isLocal State.isDesk
    by_cases h : c.station = 0
    · rw [if_pos h] at hrole
      rw [if_pos (beq_iff_eq.mpr h)]
      cases hp : s.roles.get p <;> simp_all
    · rw [if_neg h] at hrole
      rw [if_neg (by simpa using h), isChannel_iff]
      exact hrole
  have hterminal : c.terminal = false := by
    unfold Copy.live at hlive
    unfold Copy.terminal
    cases hstate : c.state with
    | none => rfl
    | some x => rw [hstate] at hlive; simpa using hlive
  obtain ⟨hbecomes, heq⟩ := lateReport_eq (p := p) (o := o) (relay := (callOf relay).getD blankCall) hat hlive
  have hserve : serveReport p number index outcome relay s = (s.lateReport p n i c o ((callOf relay).getD blankCall)).answer .lateAccepted
      ((s.lateReport p n i c o ((callOf relay).getD blankCall)).reportFields n i) := by
    rw [serveReport_copy h1 h2 hi ho hrelay hm hc, isOpen_eq_false_iff.mpr hopen, reportOn_off hform hentry, hlate, hterminal]
    rcases hcases with rfl | rfl <;> rfl
  rw [hafter] at hbecomes
  generalize s.lateReport p n i c o ((callOf relay).getD blankCall) = u at *
  rw [reportFields_eq (copyAt_of_becomes hbecomes hat)] at hserve
  obtain ⟨t, hexec, hbehind, hanswers⟩ := answered_of_serve (i := .report p tag number index outcome relay) rfl hfree rfl
    (mayUse_of_hears (hears_of_freeAt hfree) (kind := 0x18) (by decide)) (by simp [hlength]; rfl) hserve (by rw [heq])
  have hstore : t.store = u.store := (of_behind State.store hbehind :)
  have hbecomes : t.copyBecomes s n i after := copyBecomes_of_findMsg hbecomes fun k => (of_behind (fun x => x.findMsg k) hbehind :)
  rw [heq, ← hstore] at hbehind
  have hlists : t.lists = s.listsLeft n i c := (of_behind State.lists hbehind :)
  have hstatus : t.status = s.statusIfHeld c := (of_behind State.status hbehind :)
  have hbook : t.book = _ := (of_behind State.book hbehind :)
  have hcounters : t.counters = s.countersWith p (countOutcome o) := (of_behind State.counters hbehind :)
  refine ⟨t, hexec, hbecomes, ?_, fun j hj hoff => ?_,
    fun hnone => ?_, ?_, ?_, ?_, hanswers⟩
  · refine hlists.trans ?_
    unfold State.listsLeft
    cases c.holder <;> rfl
  · rw [hstatus, State.statusIfHeld, hj]
    exact raiseAt_status (routed_withdrawn hoff)
  · rw [hstatus, State.statusIfHeld, hnone]
  · refine hbook.trans (congrArg (fun f => s.book.modify c.station (Option.map f)) (funext fun st => ?_))
    by_cases h : c.station = 0
    · simp [h]
    · have hchannel : s.roles.get p = .channel := by rw [if_neg h] at hrole; exact hrole
      rcases hcases with rfl | rfl
      · simp [h, hchannel, hdelivered.mpr rfl, creditOf]
      · simp [hchannel, hrelayed.mpr rfl, creditOf]
  · refine hcounters.trans (congrArg (s.countersWith p) (funext fun k => ?_))
    rcases hcases with rfl | rfl
    · rw [if_pos (hdelivered.mpr rfl)]; rfl
    · rw [if_neg (by rw [hrelayed.mpr rfl]; decide)]; rfl
  · rw [hlists, hstatus, hbook, hcounters]
    exact hbehind

end Sys2Proof.Machine
end

section
/-! PROOF. The expiry of a deadline that lapses no channel (R69, R73, R131, R137). -/
namespace Sys2Proof.Machine

/-- An entry whose deadline has passed, returned: all that its expiry does but for the lapse count (R131). -/
def State.expired (s : State) (p : Port) (n i : Nat) : State :=
  (((((s.loseCopy n i).dropEntry p n i).raiseAt .withdrawn p).updCounters p fun c => { c with expiries := bump c.expiries }).localBack n i)

section
variable {s : State} {p : Port} {n i : Nat} {e : Entry}

theorem expireEntry_none (h : s.entryOf p n i = none) : s.expireEntry p n i = s := by rw [State.expireEntry, h]

theorem expireEntry_early (h : s.entryOf p n i = some e) (hearly : s.clock < e.deadline) : s.expireEntry p n i = s := by
  simp only [State.expireEntry, h, if_neg (Nat.not_le.mpr hearly)]

theorem expireEntry_due (h : s.entryOf p n i = some e) (hdue : e.deadline ≤ s.clock) :
    s.expireEntry p n i = (s.expired p n i).countLapse p := by
  simp only [State.expireEntry, h, if_pos hdue]
  rfl

/-- A copy in a list as its lost holder leaves it, by its state (R69, R73, R78). -/
theorem lost_eq {limit : Nat} {c : Copy} (h : c.holder = some p) : c.lost limit = { c with
    state := some (if c.state = some (.withdrawing p) then .cancelled
      else if c.state = some (.taken p) ∧ limit ≤ c.attempts then .failed else .waiting)
    uncertain := true } := by
  rcases holder_eq_some_iff.mp h with h | h <;> simp [Copy.lost, h]

theorem lost_holder (limit : Nat) (c : Copy) : (c.lost limit).holder = none := by
  cases h : c.holder with
  | none =>
    have hsame : c.lost limit = c := by
      have hstate := holder_eq_none_iff.mp h
      unfold Copy.lost
      split
      next q hq => exact absurd hq (hstate q).1
      next q hq => exact absurd hq (hstate q).2
      next => rfl
    rw [hsame, h]
  | some p =>
    rw [lost_eq h, Copy.holder]
    dsimp only [Option.bind_some]
    split
    · rfl
    · split <;> rfl

theorem loseCopy_eq {m : Message} (hm : s.findMsg n = some m) :
    s.loseCopy n i = s.changeCopy n i (Copy.lost (s.handOff.limits.get m.prec)) := by
  rw [State.loseCopy, hm]; rfl

/-- The return of an entry of a copy that its port holds, whole. -/
theorem expired_eq {m : Message} {c : Copy} (hm : s.findMsg n = some m) (hc : m.copies[i]? = some c) (hholder : c.holder = some p)
    (hoff : s.roles.get p ≠ .off) :
    (s.expired p n i).copyBecomes s n i (c.lost (s.handOff.limits.get m.prec))
    ∧ s.expired p n i = { s with
        store := (s.expired p n i).store, lists := s.listsWithout p n i, status := (s.expired p n i).status
        book := s.book.modify c.station (Option.map (Station.recount true (c.lost (s.handOff.limits.get m.prec)).live))
        counters := s.countersWith p fun k => { k with expiries := bump k.expiries } }
    ∧ ∀ q, (s.expired p n i).status.get q = s.status.get q
        ||| (if q = p then eventBit .withdrawn else 0)
        ||| (if (c.lost (s.handOff.limits.get m.prec)).state = some .failed ∧ s.roles.get q = .console then eventBit .copyFailed else 0)
        ||| (if c.station = 0 ∧ (c.lost (s.handOff.limits.get m.prec)).state = some .waiting
              ∧ (s.roles.get q = .console ∨ s.roles.get q = .intake) then eventBit .localWaiting else 0) := by
  have hat : s.copyAt n i = some c := by rw [copyAt_of_findMsg hm, hc]
  set d := c.lost (s.handOff.limits.get m.prec) with hd
  have hstation : d.station = c.station := by rw [hd, lost_eq hholder]
  have hbecomes := changeCopy_becomes hat (Copy.lost (s.handOff.limits.get m.prec))
  have hcopy := (copyAt_changeCopy hat (Copy.lost (s.handOff.limits.get m.prec)) n i).trans (if_pos ⟨rfl, rfl⟩)
  obtain ⟨store, hchange⟩ : ∃ store, s.loseCopy n i = { s with
      store := store, lists := s.listsWithout p n i, status := s.statusIfFails c d
      book := s.book.modify c.station (Option.map (Station.recount true d.live)) } := by
    refine ⟨(s.changeCopy n i (Copy.lost (s.handOff.limits.get m.prec))).store, ?_⟩
    rw [loseCopy_eq hm]
    refine (changeCopy_eq hat (lost_holder ..)).trans ?_
    rw [live_of_holder hholder, State.listsLeft, hholder]
  rw [← loseCopy_eq hm, hchange] at hbecomes hcopy
  have hdrop : (s.listsWithout p n i).set p (((s.listsWithout p n i).get p).filter fun e => !e.names n i) = s.listsWithout p n i :=
    listsWithout_listsWithout ..
  unfold State.expired
  rw [hchange, State.dropEntry, hdrop, raiseAt_eq (by exact routed_withdrawn hoff), localBack_eq (c := d) (h := ?_)]
  swap
  · exact hcopy
  refine ⟨hbecomes, rfl, fun q => ?_⟩
  have hfails := statusIfFails_get s c d q
  have hstate : c.state ≠ some .failed := by
    rcases holder_eq_some_iff.mp hholder with h | h <;> rw [h] <;> simp
  have hif : (if d.state = some .failed ∧ c.state ≠ some .failed ∧ s.roles.get q = .console then eventBit .copyFailed else 0)
      = if d.state = some .failed ∧ s.roles.get q = .console then eventBit .copyFailed else 0 :=
    if_congr (and_congr_right fun _ => and_iff_right hstate) rfl rfl
  rw [hif] at hfails
  refine (statusIfLocal_get ..).trans ?_
  rw [hstation]
  refine congrArg (· ||| _) ((statusWith_get ..).trans ?_)
  refine (congrArg (· ||| _) hfails).trans ?_
  ac_rfl

/-- The channels after an expiry that the lapse count of one CHANNEL port takes note of (R137). -/
def State.channelsLapsing (t : State) (p : Port) : PerPort Channel :=
  if t.roles.get p = .channel
    then t.channels.set p { t.channels.get p with lapseCount := min 7 ((t.channels.get p).lapseCount + 1) } else t.channels

/-- A lapse count that stays below the limit (R137). -/
theorem countLapse_below {t : State} {p : Port}
    (h : t.roles.get p = .channel → min 7 ((t.channels.get p).lapseCount + 1) < t.handOff.lapseLimit) :
    t.countLapse p = { t with channels := t.channelsLapsing p } := by
  unfold State.countLapse State.channelsLapsing
  by_cases hrole : t.roles.get p = .channel
  · rw [if_pos (isChannel_iff.mpr hrole), if_pos hrole]
    exact if_neg (Nat.not_le.mpr (h hrole))
  · rw [if_neg (mt isChannel_iff.mp hrole), if_neg hrole]

end

theorem exec_deadlineExpiry {s : State} (hs : s.inService = true) (p : Port) (n i : Nat) :
    exec (.deadlineExpiry p n i) s = .next (s.expireEntry p n i).finish :=
  exec_event (f := fun t => t.expireEntry p n i) rfl hs

/-- Settles O48. -/
theorem deadlineExpiryReturnsTheCopy : Obligations.DeadlineExpiryReturnsTheCopy := by
  intro p n i s hs
  have hexec := exec_deadlineExpiry hs p n i
  refine ⟨fun hnone => ⟨_, hexec, ?_⟩, fun m c e he => ⟨fun hearly => ⟨_, hexec, ?_⟩, ?_⟩⟩
  · rw [expireEntry_none hnone]
    exact ⟨State.finish_follows rfl, State.finish_behind _⟩
  · rw [expireEntry_early he hearly]
    exact ⟨State.finish_follows rfl, State.finish_behind _⟩
  · intro hdue hm hc hoff hstate hbelow failed after
    have hholder : c.holder = some p := holder_eq_some_iff.mpr hstate
    have hafter : after = c.lost (s.handOff.limits.get m.prec) := (lost_eq hholder).symm
    have hlive : ∀ st : Station, Station.recount true after.live st
        = if after.live then st else { st with waiting := st.waiting - 1 } := fun st => by
      cases after.live <;> rfl
    have hfailed : after.state = some .failed ↔ failed := by
      rcases hstate with h | h <;> by_cases hlimit : s.handOff.limits.get m.prec ≤ c.attempts <;> simp [after, failed, h, hlimit]
    obtain ⟨hbecomes, hframe, hstatus⟩ := expired_eq hm hc hholder hoff
    rw [expireEntry_due he hdue] at hexec
    rw [← hafter] at hbecomes hframe hstatus
    have hcount : (s.expired p n i).countLapse p = { s.expired p n i with channels := s.channelsLapsing p } := by
      rw [hframe]
      exact countLapse_below hbelow
    rw [hcount] at hexec
    generalize s.expired p n i = u at *
    have hunits : u.units = s.units := by rw [hframe]
    refine ⟨_, hexec, State.finish_follows hunits, copyBecomes_of_findMsg hbecomes fun k => ?_, ?_, ?_, ?_, ?_, fun q => ?_, ?_⟩
    · rw [State.findMsg, State.finish_store, State.findMsg]
    · rw [State.finish_lists]
      exact (by rw [hframe] : u.lists = s.listsWithout p n i)
    · rw [State.finish_book]
      refine (by rw [hframe] : u.book = _).trans (congrArg (fun f => s.book.modify c.station (Option.map f)) (funext hlive))
    · rw [State.finish_eq]
      exact (by rw [hframe] : u.counters = s.countersWith p fun k => { k with expiries := bump k.expiries })
    · rw [State.finish_channels]; rfl
    · rw [State.finish_status]
      refine (hstatus q).trans ?_
      simp only [hfailed]
    · refine (State.finish_behind _).trans ?_
      rw [hframe]
      rfl

end Sys2Proof.Machine
end

section
/-! PROOF. PURGE and CLEAR STORE (R14, R15, R19, R20, R21). -/
namespace Sys2Proof.Machine

theorem joinRing_eq (ring : List Key) (k : Key) : joinRing ring k = (if ring.length < 64 then ring else ring.drop 1) ++ [k] := by
  have hmax : Config.ringMax = 64 := rfl
  simp only [joinRing, hmax]
  by_cases h : 64 ≤ ring.length
  · rw [if_pos h, if_neg (by omega)]
  · rw [if_neg h, if_pos (by omega)]

theorem any_inList_eq_true {copies : List Copy} (h : ∃ c ∈ copies, c.holder ≠ none) : copies.any Copy.inList = true := by
  obtain ⟨c, hc, hholder⟩ := h
  exact List.any_eq_true.mpr ⟨c, hc, Option.isSome_iff_ne_none.mpr hholder⟩

theorem any_inList_eq_false {copies : List Copy} (h : ∀ c ∈ copies, c.holder = none) : copies.any Copy.inList = false :=
  List.any_eq_false.mpr fun c hc => by rw [Copy.inList, h c hc]; exact Bool.false_ne_true

/-- A purge and the look at the store-low condition after it. -/
theorem purgeMsg_checkLow (s : State) (m : Message) : (s.purgeMsg m).checkLow = { s with
    store := s.store.filter fun x => x.number != m.number
    dupTable := s.dupTable.erase m.key
    ring := joinRing s.ring m.key
    book := (s.purgeMsg m).book
    prevLow := (s.purgeMsg m).low
    status := s.statusIfLow (s.purgeMsg m).low } := by
  have hstatus (b : Bool) : (s.purgeMsg m).statusIfLow b = s.statusIfLow b := by rw [purgeMsg_eq]; rfl
  rw [checkLow_eq, hstatus]
  generalize (s.purgeMsg m).low = b
  rw [purgeMsg_eq]

theorem routed_openExpired {r : Role} (h : r ≠ .off) : eventBit .openExpired &&& routedSet r = eventBit .openExpired := by
  cases r with
  | off => exact absurd rfl h
  | _ => decide

theorem any_lodge_iff (s : State) : (Port.all.any fun q => (s.lodges.get q).isSome) = true ↔ s.lodges ≠ .same none := by
  rw [List.any_eq_true]
  constructor
  · rintro ⟨q, -, hq⟩ hsame
    rw [hsame, PerPort.get_same] at hq
    exact Bool.false_ne_true hq
  · intro hne
    by_contra hnone
    refine hne (PerPort.ext_get fun q => ?_)
    rw [PerPort.get_same]
    by_contra hq
    exact hnone ⟨q, Port.mem_all q, Option.isSome_iff_ne_none.mpr hq⟩

/-- All traffic removed, with the events that tell who loses by it (R19, R20, R21). -/
theorem clearTraffic_eq (s : State) : s.clearTraffic = { s with
    store := [], dupTable := [], ring := [], lodges := .same none, lists := .same []
    book := s.book.map (Option.map fun st => { st with waiting := 0 }), status := s.clearTraffic.status } := rfl

theorem clearTraffic_status (s : State) {q : Port} (hq : s.roles.get q ≠ .off) : s.clearTraffic.status.get q = s.status.get q
    ||| (if s.lists.get q ≠ [] then eventBit .withdrawn else 0)
    ||| (if s.lodges.get q ≠ none ∨ s.roles.get q = .console ∧ s.lodges ≠ .same none then eventBit .openExpired else 0) := by
  have hlodge : ((s.lodges.get q).isSome || ((Port.all.any fun q => (s.lodges.get q).isSome) && s.isConsole q)) = true
      ↔ s.lodges.get q ≠ none ∨ s.roles.get q = .console ∧ s.lodges ≠ .same none := by
    rw [Bool.or_eq_true, Bool.and_eq_true, any_lodge_iff, Option.isSome_iff_ne_none, State.isConsole, beq_iff_eq, and_comm (a := _ ≠ _)]
  have hlist : (!(s.lists.get q).isEmpty) = true ↔ s.lists.get q ≠ [] := by simp
  refine (raiseWhere_status_get ..).trans ?_
  refine congrArg₂ (· ||| ·) ((raiseWhere_status_get ..).trans ?_) (if_congr hlodge (routed_openExpired hq) rfl)
  exact congrArg (_ ||| ·) (if_congr hlist (routed_withdrawn hq) rfl)

theorem low_congr {s t : State} (h : t.store = s.store) : t.low = s.low := by
  rw [State.low, State.low, State.freeSlots, State.freeSlots, State.freeBlocks, State.freeBlocks, h]

theorem clearTraffic_low (s : State) : s.clearTraffic.low = false := by
  exact low_congr (s := { s with store := [] }) (t := s.clearTraffic) rfl

theorem clearTraffic_checkLow (s : State) : s.clearTraffic.checkLow = { s.clearTraffic with prevLow := false } := by
  rw [checkLow_eq, clearTraffic_low, statusIfLow_eq (by exact fun h => absurd h Bool.false_ne_true)]

/-- Settles O52. -/
theorem purgeAndClearStoreRemoveTraffic : Obligations.PurgeAndClearStoreRemoveTraffic := by
  intro p tag s hfree hconsole
  have hrole (kind : Byte) : mayUse (s.roles.get p) kind = mayUse .console kind := by rw [hconsole]
  refine ⟨?_, ?_⟩
  · intro number n answered refused
    have refuse {r : Result} (h : servePurge number s = s.answer r) : refused r := by
      obtain ⟨t, hexec, hbehind, hanswers⟩ :=
        answered_of_serve (i := .purge p tag number) rfl hfree rfl (hrole _) rfl h rfl
      exact ⟨t, ⟨hexec, hanswers⟩, hbehind⟩
    refine ⟨fun hbad => refuse (by rw [servePurge, numberOf_eq_none hbad]), fun h1 h2 hnone => refuse ?_, fun m h1 h2 hm => ?_⟩
    · simp [servePurge, numberOf_eq_some h1 h2, show s.findMsg number.toNat = none from hnone]
    have hserve : servePurge number s = if m.isOpen then s.answer .state
        else if m.copies.any Copy.inList then s.answer .inUse
        else (s.purgeMsg m).checkLow.answer .ok (be16 n ++ be8 m.chain.length ++ be8 (m.copies.countP Copy.live)) := by
      simp [servePurge, numberOf_eq_some h1 h2, show s.findMsg number.toNat = some m from hm, n]
    refine ⟨fun hopen => refuse ?_, fun hopen hlist => refuse ?_, fun hopen hlist => ?_⟩
    · rw [hserve, if_pos (isOpen_iff.mpr hopen)]
    · rw [hserve, if_neg (mt isOpen_iff.mp hopen), if_pos (any_inList_eq_true hlist)]
    · rw [if_neg (mt isOpen_iff.mp hopen), any_inList_eq_false hlist, if_neg Bool.false_ne_true, purgeMsg_checkLow, joinRing_eq,
        findMsg_number hm] at hserve
      obtain ⟨t, hexec, hbehind, hanswers⟩ :=
        answered_of_serve (i := .purge p tag number) rfl hfree rfl (hrole _) rfl hserve rfl
      have hbook : t.book = (s.purgeMsg m).book := (of_behind State.book hbehind :)
      have hlow : t.low = (s.purgeMsg m).low := low_congr ((of_behind State.store hbehind :).trans (by rw [purgeMsg_eq, findMsg_number hm]; rfl))
      rw [← hbook, ← hlow] at hbehind
      refine ⟨t, ⟨hexec, hanswers⟩, fun e => ?_, hbehind⟩
      rw [State.station, hbook]
      exact station_purgeMsg s m e
  · intro cleared
    have hserve : serveClearStore s = { s.clearTraffic with prevLow := false }.answer .ok
        (be8 s.store.length ++ be8 (Port.all.map fun q => (s.lists.get q).length).sum) := by
      rw [serveClearStore, clearTraffic_checkLow]; rfl
    obtain ⟨t, hexec, hbehind, hanswers⟩ :=
      answered_of_serve (i := .clearStore p tag) rfl hfree rfl (hrole _) rfl hserve rfl
    have hstatus : t.status = s.clearTraffic.status := (of_behind State.status hbehind :)
    refine ⟨t, hexec, hanswers, fun q hq => ?_, ?_⟩
    · rw [hstatus, clearTraffic_status s hq]
    · rw [hstatus, hbehind]
      rfl

end Sys2Proof.Machine
end

section
/-! PROOF. Changes of several copies in turn: the messages, the copies, the lists and the status sets after them (R5, R57, R63, R70). -/
namespace Sys2Proof.Machine

/-- Each of some copies changed, in turn. -/
def State.changeEach (s : State) (refs : List (Nat × Nat)) (g : Nat → Nat → Copy → Copy) : State :=
  refs.foldl (fun t r => t.changeCopy r.1 r.2 (g r.1 r.2)) s

/-- The changes give each copy its new value at once: a second change of the same copy does no more. -/
def Settles (g : Nat → Nat → Copy → Copy) : Prop := ∀ k j c, g k j (g k j c) = g k j c

/-! ### A message whose copies change -/

theorem rephase_rephase {now : Nat} {m : Message} {a b : List Copy}
    (h : ∀ f t, m.phase = .closed f t → a.all Copy.terminal = false → b.all Copy.terminal = false) :
    Message.rephase now { Message.rephase now { m with copies := a } with copies := b } = Message.rephase now { m with copies := b } := by
  cases hphase : m.phase with
  | opened => simp [Message.rephase]
  | filed f => cases ha : a.all Copy.terminal <;> cases hb : b.all Copy.terminal <;> simp [Message.rephase, ha, hb]
  | closed f t =>
    have h := h f t hphase
    cases ha : a.all Copy.terminal <;> cases hb : b.all Copy.terminal
    · simp [Message.rephase, ha, hb]
    · rw [ha, hb] at h; exact absurd (h rfl) (by decide)
    · simp [Message.rephase, ha, hb]
    · simp [Message.rephase, ha, hb]

/-- The copies of a message after the changes of some of them. -/
def Message.copiesAfter (refs : List (Nat × Nat)) (g : Nat → Nat → Copy → Copy) (m : Message) : List Copy :=
  m.copies.mapIdx fun j c => if (m.number, j) ∈ refs then g m.number j c else c

/-- Some change is one of a copy of the message. -/
def Message.touched (refs : List (Nat × Nat)) (m : Message) : Bool :=
  refs.any fun r => r.1 == m.number && decide (r.2 < m.copies.length)

/-- A message after the changes of some of its copies. -/
def Message.after (now : Nat) (refs : List (Nat × Nat)) (g : Nat → Nat → Copy → Copy) (m : Message) : Message :=
  if m.touched refs then Message.rephase now { m with copies := m.copiesAfter refs g } else m

/-- A closed message is not closed anew by the changes: none makes a copy terminal again. -/
def Message.closesOnce (g : Nat → Nat → Copy → Copy) (m : Message) : Prop :=
  ∀ f t, m.phase = .closed f t → ∀ j c, c.terminal = false → (g m.number j c).terminal = false

section
variable {refs : List (Nat × Nat)} {g : Nat → Nat → Copy → Copy} {m : Message}

theorem touched_eq_true_iff : m.touched refs = true ↔ ∃ j, (m.number, j) ∈ refs ∧ j < m.copies.length := by
  simp only [Message.touched, List.any_eq_true, Bool.and_eq_true, beq_iff_eq, decide_eq_true_eq]
  exact ⟨fun ⟨r, hr, hk, hj⟩ => ⟨r.2, hk ▸ hr, hj⟩, fun ⟨j, hr, hj⟩ => ⟨_, hr, rfl, hj⟩⟩

theorem getElem?_copiesAfter (j : Nat) :
    (m.copiesAfter refs g)[j]? = m.copies[j]?.map fun c => if (m.number, j) ∈ refs then g m.number j c else c := by
  rw [Message.copiesAfter, List.getElem?_mapIdx]

theorem copiesAfter_of_not_touched (h : m.touched refs = false) : m.copiesAfter refs g = m.copies := by
  refine List.ext_getElem? fun j => ?_
  rw [getElem?_copiesAfter]
  cases hc : m.copies[j]? with
  | none => rfl
  | some c =>
    have hmem : (m.number, j) ∉ refs := fun hmem =>
      Bool.false_ne_true (h.symm.trans (touched_eq_true_iff.mpr ⟨j, hmem, (List.getElem?_eq_some_iff.mp hc).1⟩))
    rw [Option.map_some, if_neg hmem]

theorem after_copies (now : Nat) : (m.after now refs g).copies = m.copiesAfter refs g := by
  unfold Message.after
  split
  next => exact rephase_copies ..
  next h => exact (copiesAfter_of_not_touched (Bool.eq_false_iff.mpr h)).symm

theorem after_number (now : Nat) : (m.after now refs g).number = m.number := by
  unfold Message.after; split <;> [exact rephase_number ..; rfl]

theorem mem_concat_of_other {n i j : Nat} (h : n ≠ m.number ∨ m.copies.length ≤ i) (hj : j < m.copies.length) :
    (m.number, j) ∈ refs ++ [(n, i)] ↔ (m.number, j) ∈ refs := by
  rw [List.mem_append, List.mem_singleton, Prod.mk.injEq]
  exact or_iff_left fun hsame => h.elim (absurd hsame.1.symm) fun hlength => absurd (hsame.2 ▸ hj) (Nat.not_lt.mpr hlength)

/-- A change of a copy that the message does not have. -/
theorem copiesAfter_concat_of_other {n i : Nat} (h : n ≠ m.number ∨ m.copies.length ≤ i) :
    m.copiesAfter (refs ++ [(n, i)]) g = m.copiesAfter refs g := by
  refine List.ext_getElem? fun j => ?_
  rw [getElem?_copiesAfter, getElem?_copiesAfter]
  cases hc : m.copies[j]? with
  | none => rfl
  | some c => simp only [mem_concat_of_other h (List.getElem?_eq_some_iff.mp hc).1]

theorem after_concat_of_other {n i : Nat} (h : n ≠ m.number ∨ m.copies.length ≤ i) (now : Nat) :
    m.after now (refs ++ [(n, i)]) g = m.after now refs g := by
  have htouched : m.touched (refs ++ [(n, i)]) = m.touched refs := by
    rw [Bool.eq_iff_iff, touched_eq_true_iff, touched_eq_true_iff]
    exact exists_congr fun j => and_congr_left fun hj => mem_concat_of_other h hj
  rw [Message.after, Message.after, htouched, copiesAfter_concat_of_other h]

/-- One change more. -/
theorem copiesAfter_concat (hg : Settles g) (i : Nat) {c : Copy} (hc : (m.copiesAfter refs g)[i]? = some c) :
    (m.copiesAfter refs g).set i (g m.number i c) = m.copiesAfter (refs ++ [(m.number, i)]) g := by
  refine List.ext_getElem? fun j => ?_
  rw [List.getElem?_set, getElem?_copiesAfter, getElem?_copiesAfter]
  by_cases hj : i = j
  · subst hj
    rw [if_pos rfl, if_pos (List.getElem?_eq_some_iff.mp hc).1]
    rw [getElem?_copiesAfter] at hc
    obtain ⟨d, hd, rfl⟩ := Option.map_eq_some_iff.mp hc
    rw [hd, Option.map_some, if_pos (List.mem_append_right _ (List.mem_singleton.mpr rfl))]
    split
    · rw [hg]
    · rfl
  · rw [if_neg hj]
    have : (m.number, j) ∈ refs ++ [(m.number, i)] ↔ (m.number, j) ∈ refs := by
      rw [List.mem_append, List.mem_singleton, Prod.mk.injEq]
      exact or_iff_left fun h => hj h.2.symm
    simp only [this]

theorem withCopy_after (hg : Settles g) (honce : m.closesOnce g) (now i : Nat) {c : Copy} (hc : (m.after now refs g).copies[i]? = some c) :
    Message.withCopy now i (g m.number i c) (m.after now refs g) = m.after now (refs ++ [(m.number, i)]) g := by
  rw [after_copies] at hc
  have hlength : i < m.copies.length := by
    have := (List.getElem?_eq_some_iff.mp hc).1
    rwa [Message.copiesAfter, List.length_mapIdx] at this
  have htouched : m.touched (refs ++ [(m.number, i)]) = true := touched_eq_true_iff.mpr ⟨i, by simp, hlength⟩
  rw [Message.withCopy, after_copies, copiesAfter_concat hg i hc, Message.after, Message.after, if_pos htouched]
  split
  · refine rephase_rephase fun f t hphase hopen => ?_
    rw [List.all_eq_false] at hopen ⊢
    obtain ⟨d, hd, hlive⟩ := hopen
    obtain ⟨j, hj⟩ := List.getElem?_of_mem hd
    rw [← copiesAfter_concat hg i hc]
    by_cases hij : i = j
    · subst hij
      rw [hc] at hj
      cases hj
      refine ⟨_, List.mem_of_getElem? (i := i) ?_, by simpa using honce f t hphase i c (by simpa using hlive)⟩
      rw [List.getElem?_set, if_pos rfl, if_pos (List.getElem?_eq_some_iff.mp hc).1]
    · exact ⟨d, List.mem_of_getElem? (i := j) (by rw [List.getElem?_set, if_neg hij, hj]), hlive⟩
  · rfl

end

/-! ### The state after the changes -/

section
variable {s : State} {refs : List (Nat × Nat)} {g : Nat → Nat → Copy → Copy}

theorem changeEach_concat (s : State) (refs : List (Nat × Nat)) (g : Nat → Nat → Copy → Copy) (r : Nat × Nat) :
    s.changeEach (refs ++ [r]) g = (s.changeEach refs g).changeCopy r.1 r.2 (g r.1 r.2) := List.foldl_concat ..

theorem changeEach_frame (s : State) (refs : List (Nat × Nat)) (g : Nat → Nat → Copy → Copy) : s.changeEach refs g = { s with
    store := (s.changeEach refs g).store, book := (s.changeEach refs g).book
    lists := (s.changeEach refs g).lists, status := (s.changeEach refs g).status } := by
  induction refs using List.reverseRecOn with
  | nil => rfl
  | append_singleton refs r ih =>
    rw [changeEach_concat]
    refine (State.changeCopy_frame ..).trans ?_
    generalize (s.changeEach refs g).changeCopy r.1 r.2 (g r.1 r.2) = u
    rw [ih]

/-- A message without its phase. -/
def Message.phaseless (m : Message) : Message := { m with phase := .opened }

theorem rephase_phaseless (now : Nat) (m : Message) : (Message.rephase now m).phaseless = m.phaseless := by
  unfold Message.rephase; split <;> (try split) <;> rfl

theorem withCopy_phaseless (now i : Nat) (d : Copy) (m : Message) :
    (Message.withCopy now i d m).phaseless = { m.phaseless with copies := m.copies.set i d } := rephase_phaseless ..

/-- A message after the changes, but for its phase. -/
theorem findMsg_changeEach_phaseless (hg : Settles g) (k : Nat) : ((s.changeEach refs g).findMsg k).map Message.phaseless
    = (s.findMsg k).map fun m => { m.phaseless with copies := m.copiesAfter refs g } := by
  induction refs using List.reverseRecOn with
  | nil =>
    have hnil (m : Message) : m.copiesAfter [] g = m.copies := copiesAfter_of_not_touched rfl
    exact congrArg (Option.map · (s.findMsg k)) (funext fun m => by rw [hnil]; rfl)
  | append_singleton refs r ih =>
    obtain ⟨n, i⟩ := r
    rw [changeEach_concat]
    cases hat : (s.changeEach refs g).copyAt n i with
    | none =>
      rw [State.changeCopy_none hat, ih]
      cases hm : s.findMsg k with
      | none => rfl
      | some m =>
        rw [hm] at ih
        obtain ⟨u, hu, hum⟩ := Option.map_eq_some_iff.mp ih
        have hcopies : u.copies = m.copiesAfter refs g := congrArg Message.copies hum
        rw [Option.map_some, Option.map_some, copiesAfter_concat_of_other]
        by_cases hk : n = k
        · subst hk
          rw [copyAt_of_findMsg hu, hcopies, List.getElem?_eq_none_iff, Message.copiesAfter, List.length_mapIdx] at hat
          exact .inr hat
        · exact .inl (findMsg_number hm ▸ hk)
    | some c =>
      rw [findMsg_changeCopy hat]
      cases hm : s.findMsg k with
      | none =>
        rw [hm] at ih
        split
        next hk => subst hk; rw [Option.map_eq_none_iff.mp ih]; rfl
        next => exact ih
      | some m =>
        have hnumber := findMsg_number hm
        rw [hm] at ih
        obtain ⟨u, hu, hum⟩ := Option.map_eq_some_iff.mp ih
        have hcopies : u.copies = m.copiesAfter refs g := congrArg Message.copies hum
        by_cases hk : k = n
        · subst hk
          rw [copyAt_of_findMsg hu, hcopies] at hat
          have hset := copiesAfter_concat hg i hat
          rw [hnumber] at hset
          rw [if_pos rfl, hu, Option.map_some, Option.map_some, Option.map_some, withCopy_phaseless, hum, hcopies, hset]
        · rw [if_neg hk, hu, Option.map_some, Option.map_some, hum,
            copiesAfter_concat_of_other (.inl fun h => hk (hnumber ▸ h.symm))]

/-- A message after the changes. -/
theorem findMsg_changeEach (hg : Settles g) {k : Nat} (honce : ∀ m, s.findMsg k = some m → m.touched refs = true → m.closesOnce g) :
    (s.changeEach refs g).findMsg k = (s.findMsg k).map (Message.after s.clock refs g) := by
  induction refs using List.reverseRecOn with
  | nil =>
    cases hm : s.findMsg k with
    | none => exact hm
    | some m => exact hm
  | append_singleton refs r ih =>
    have hclock : (s.changeEach refs g).clock = s.clock := by rw [changeEach_frame]
    have ih := ih fun m hm htouched => honce m hm (by rw [Message.touched, List.any_append, ← Message.touched, htouched, Bool.true_or])
    rw [changeEach_concat]
    cases hm : s.findMsg k with
    | none =>
      have hnone : (s.changeEach refs g).findMsg k = none := by rw [ih, hm]; rfl
      cases hat : (s.changeEach refs g).copyAt r.1 r.2 with
      | none => rw [State.changeCopy_none hat, hnone]; rfl
      | some c => rw [findMsg_changeCopy hat]; split <;> simp_all
    | some m =>
      obtain ⟨n, i⟩ := r
      have hnumber : m.number = k := findMsg_number hm
      have hafter : (s.changeEach refs g).findMsg k = some (m.after s.clock refs g) := by rw [ih, hm]; rfl
      rw [Option.map_some]
      cases hat : (s.changeEach refs g).copyAt n i with
      | none =>
        rw [State.changeCopy_none hat, hafter, after_concat_of_other]
        by_cases hk : n = k
        · subst hk
          rw [copyAt_of_findMsg hafter, after_copies, List.getElem?_eq_none_iff, Message.copiesAfter, List.length_mapIdx] at hat
          exact .inr hat
        · exact .inl (hnumber ▸ hk)
      | some c =>
        rw [findMsg_changeCopy hat]
        by_cases hk : k = n
        · subst hk
          rw [copyAt_of_findMsg hafter] at hat
          rw [if_pos rfl, hafter, Option.map_some, hclock]
          have hlength : i < m.copies.length := by
            have := (List.getElem?_eq_some_iff.mp hat).1
            rwa [after_copies, Message.copiesAfter, List.length_mapIdx] at this
          have htouched : m.touched (refs ++ [(k, i)]) = true :=
            touched_eq_true_iff.mpr ⟨i, List.mem_append_right _ (List.mem_singleton.mpr (by rw [hnumber])), hlength⟩
          have hstep := withCopy_after hg (honce m hm htouched) s.clock i hat
          rw [hnumber] at hstep
          rw [hstep]
        · rw [if_neg hk, hafter, after_concat_of_other (.inl fun h => hk (hnumber ▸ h.symm))]

/-- A copy after the changes. -/
theorem copyAt_changeEach (hg : Settles g) (k j : Nat) :
    (s.changeEach refs g).copyAt k j = (s.copyAt k j).map fun c => if (k, j) ∈ refs then g k j c else c := by
  have hcopies (o : Option Message) : (o.bind fun m => m.copies[j]?) = (o.map Message.phaseless).bind fun m => m.copies[j]? := by
    cases o <;> rfl
  rw [State.copyAt, hcopies, findMsg_changeEach_phaseless hg]
  cases hm : s.findMsg k with
  | none => rw [State.copyAt, hm]; rfl
  | some m =>
    rw [copyAt_of_findMsg hm, Option.map_some, Option.bind_some, getElem?_copiesAfter, findMsg_number hm]

theorem changeCopy_numbers (s : State) (n i : Nat) (f : Copy → Copy) :
    (s.changeCopy n i f).store.map Message.number = s.store.map Message.number := by
  cases hat : s.copyAt n i with
  | none => rw [State.changeCopy_none hat]
  | some c =>
    rw [changeCopy_store hat, State.updMsg, List.map_map]
    refine List.map_congr_left fun m _ => ?_
    rw [Function.comp_apply]
    split
    · exact rephase_number ..
    · rfl

theorem changeEach_numbers (s : State) (refs : List (Nat × Nat)) (g : Nat → Nat → Copy → Copy) :
    (s.changeEach refs g).store.map Message.number = s.store.map Message.number := by
  induction refs using List.reverseRecOn with
  | nil => rfl
  | append_singleton refs r ih => rw [changeEach_concat, changeCopy_numbers, ih]

end

end Sys2Proof.Machine
end

section
/-! PROOF. The live copies for a station, counted over the store, and the waiting counts, the lists and the status sets that follow the
changes of copies (R57, R63, R70). -/
namespace Sys2Proof.Machine

/-! ### The live copies for a station -/

/-- The live copies of a message for a station. -/
def Message.liveFor (e : Nat) (m : Message) : Nat := m.copies.countP fun c => c.live && c.station == e

/-- The live copies of the store for a station. -/
def State.liveAt (s : State) (e : Nat) : Nat := (s.store.map (Message.liveFor e)).sum

/-- What one copy adds to the live copies for a station. -/
def Copy.weight (e : Nat) (c : Copy) : Nat := if c.live && c.station == e then 1 else 0

section
variable {s : State} {n i : Nat} {c : Copy}

/-- A sum over the messages when one of them changes. -/
theorem sum_updMsg (hdistinct : s.numbersDistinct) {m : Message} (hm : s.findMsg n = some m) (f : Message → Message) (w : Message → Nat) :
    ((s.updMsg n f).store.map w).sum + w m = (s.store.map w).sum + w (f m) := by
  obtain ⟨a, b, hstore⟩ := List.append_of_mem (findMsg_mem hm)
  have hnumber := findMsg_number hm
  have hnodup := hdistinct
  rw [State.numbersDistinct, hstore, List.map_append, List.map_cons, List.nodup_middle, List.nodup_cons, List.mem_append, not_or] at hnodup
  have hsame {l : List Message} (hl : m.number ∉ l.map Message.number) : l.map (fun x => if x.number == n then f x else x) = l := by
    conv_rhs => rw [← List.map_id l]
    refine List.map_congr_left fun x hx => if_neg fun hxn => hl ?_
    rw [hnumber, ← beq_iff_eq.mp hxn]
    exact List.mem_map_of_mem hx
  rw [State.updMsg, hstore, List.map_append, List.map_cons, hsame hnodup.1.1, hsame hnodup.1.2, if_pos (beq_iff_eq.mpr hnumber)]
  simp only [List.map_append, List.map_cons, List.sum_append, List.sum_cons]
  omega

theorem liveFor_withCopy {m : Message} (hc : m.copies[i]? = some c) (now : Nat) (d : Copy) (e : Nat) :
    (Message.withCopy now i d m).liveFor e + c.weight e = m.liveFor e + d.weight e := by
  obtain ⟨hlength, hget⟩ := List.getElem?_eq_some_iff.mp hc
  have hpos : c.weight e ≤ m.liveFor e := by
    unfold Copy.weight Message.liveFor
    split
    next h => exact List.countP_pos_iff.mpr ⟨c, List.mem_of_getElem? hc, h⟩
    next => exact Nat.zero_le _
  rw [Message.liveFor, withCopy_copies, List.countP_set hlength, hget]
  unfold Copy.weight Message.liveFor at *
  omega

/-- The live copies for a station after a change of one copy. -/
theorem liveAt_changeCopy (hdistinct : s.numbersDistinct) (h : s.copyAt n i = some c) (f : Copy → Copy) (e : Nat) :
    (s.changeCopy n i f).liveAt e + c.weight e = s.liveAt e + (f c).weight e := by
  obtain ⟨m, hm, hc⟩ := Option.bind_eq_some_iff.mp h
  have hsum := sum_updMsg hdistinct hm (Message.withCopy s.clock i (f c)) (Message.liveFor e)
  have hcopy := liveFor_withCopy hc s.clock (f c) e
  rw [State.liveAt, changeCopy_store h]
  unfold State.liveAt
  omega

theorem station_changeCopy (h : s.copyAt n i = some c) (f : Copy → Copy) (e : Nat) : (s.changeCopy n i f).station e
    = (s.station e).map fun st => if c.station = e then Station.recount c.live (f c).live st else st := by
  have hbook : (s.changeCopy n i f).station e = (s.updStation c.station (Station.recount c.live (f c).live)).station e := by
    rw [State.station, changeCopy_book h]; rfl
  rw [hbook, State.station_updStation]
  by_cases he : e = c.station
  · subst he; simp
  · have hne : ¬ c.station = e := fun h => he h.symm
    simp [he, hne]

end

/-- The waiting counts gone down with the live copies. -/
def State.countsLowered (t s : State) : Prop :=
  ∀ e, t.liveAt e ≤ s.liveAt e ∧ t.station e = (s.station e).map fun st => { st with waiting := st.waiting - (s.liveAt e - t.liveAt e) }

/-- The waiting counts gone up with the live copies. -/
def State.countsRaised (t s : State) : Prop :=
  ∀ e, s.liveAt e ≤ t.liveAt e ∧ t.station e = (s.station e).map fun st => { st with waiting := st.waiting + (t.liveAt e - s.liveAt e) }

theorem State.countsLowered.refl (s : State) : s.countsLowered s := fun e => ⟨le_rfl, by
  rw [Nat.sub_self]; cases s.station e <;> rfl⟩

theorem State.countsRaised.refl (s : State) : s.countsRaised s := fun e => ⟨le_rfl, by
  rw [Nat.sub_self]; cases s.station e <;> rfl⟩

theorem State.countsLowered.trans {s t u : State} (h : u.countsLowered t) (h' : t.countsLowered s) : u.countsLowered s := fun e => by
  obtain ⟨hle, hst⟩ := h e
  obtain ⟨hle', hst'⟩ := h' e
  refine ⟨hle.trans hle', ?_⟩
  rw [hst, hst', Option.map_map]
  refine congrArg (Option.map · _) (funext fun st => ?_)
  simp only [Function.comp_apply, Station.mk.injEq, true_and, and_true]
  omega

theorem State.countsRaised.trans {s t u : State} (h : u.countsRaised t) (h' : t.countsRaised s) : u.countsRaised s := fun e => by
  obtain ⟨hle, hst⟩ := h e
  obtain ⟨hle', hst'⟩ := h' e
  refine ⟨hle'.trans hle, ?_⟩
  rw [hst, hst', Option.map_map]
  refine congrArg (Option.map · _) (funext fun st => ?_)
  simp only [Function.comp_apply, Station.mk.injEq, true_and, and_true]
  omega

theorem followHolder_lists_of_ne {s : State} {n i : Nat} {c : Copy} {q : Port} (h : c.holder ≠ some q) (d : Copy) :
    (s.followHolder n i c d).lists.get q = s.lists.get q := by
  unfold State.followHolder
  split
  next => rfl
  next j hj =>
    have hne : q ≠ j := fun hqj => h (hqj ▸ hj)
    split
    · split
      · exact PerPort.get_set_ne _ _ hne
      · rfl
    · exact PerPort.get_set_ne _ _ hne

section
variable {s : State} {n i : Nat} {f : Copy → Copy}

/-- A change of one copy, weighed: the live copies for a station and its waiting count. -/
theorem changeCopy_weighed (hdistinct : s.numbersDistinct) (hstation : ∀ c, (f c).station = c.station) {c : Copy}
    (h : s.copyAt n i = some c) (e : Nat) :
    (s.changeCopy n i f).liveAt e + c.weight e = s.liveAt e + (f c).weight e
      ∧ (s.changeCopy n i f).station e
        = (s.station e).map fun st => { st with waiting := st.waiting + (f c).weight e - c.weight e } := by
  refine ⟨liveAt_changeCopy hdistinct h f e, ?_⟩
  rw [station_changeCopy h]
  refine congrArg (Option.map · _) (funext fun st => ?_)
  unfold Copy.weight
  rw [hstation]
  by_cases he : c.station = e
  · cases hc : c.live <;> cases hd : (f c).live <;> simp [he, Station.recount]
  · simp [he]

theorem changeCopy_countsLowered (hdistinct : s.numbersDistinct) (hstation : ∀ c, (f c).station = c.station)
    (hlive : ∀ c, (f c).live = true → c.live = true) : (s.changeCopy n i f).countsLowered s := by
  cases h : s.copyAt n i with
  | none => rw [State.changeCopy_none h]; exact .refl s
  | some c =>
    intro e
    obtain ⟨hcount, hwaiting⟩ := changeCopy_weighed hdistinct hstation h e
    have hle : (f c).weight e ≤ c.weight e := by
      unfold Copy.weight
      rw [hstation]
      cases hd : (f c).live
      · simp
      · simp [hlive c hd]
    refine ⟨by omega, hwaiting.trans (congrArg (Option.map · _) (funext fun st => ?_))⟩
    simp only [Station.mk.injEq, true_and, and_true]
    omega

theorem changeCopy_countsRaised (hdistinct : s.numbersDistinct) (hstation : ∀ c, (f c).station = c.station)
    (hlive : ∀ c, c.live = true → (f c).live = true) : (s.changeCopy n i f).countsRaised s := by
  cases h : s.copyAt n i with
  | none => rw [State.changeCopy_none h]; exact .refl s
  | some c =>
    intro e
    obtain ⟨hcount, hwaiting⟩ := changeCopy_weighed hdistinct hstation h e
    have hle : c.weight e ≤ (f c).weight e := by
      unfold Copy.weight
      rw [hstation]
      cases hc : c.live
      · simp
      · simp [hlive c hc]
    refine ⟨by omega, hwaiting.trans (congrArg (Option.map · _) (funext fun st => ?_))⟩
    simp only [Station.mk.injEq, true_and, and_true]
    omega

end

/-! ### The counts, the lists and the status sets after the changes -/

/-- A store of the same numbers, message by message. -/
theorem store_map_eq {α : Type} {s t : State} (hdistinct : s.numbersDistinct)
    (hnumbers : t.store.map Message.number = s.store.map Message.number) {w f : Message → α}
    (hfind : ∀ m ∈ s.store, (t.findMsg m.number).map w = some (f m)) : t.store.map w = s.store.map f := by
  have hdistinct' : t.numbersDistinct := by rw [State.numbersDistinct, hnumbers]; exact hdistinct
  have hlength : t.store.length = s.store.length := by simpa using congrArg List.length hnumbers
  refine List.ext_getElem (by rw [List.length_map, hlength, List.length_map]) fun i hi hi' => ?_
  rw [List.length_map] at hi hi'
  have hnumber : (t.store[i]).number = (s.store[i]).number := by
    have := List.getElem_of_eq hnumbers (i := i) (by rwa [List.length_map])
    rwa [List.getElem_map, List.getElem_map] at this
  have hat := hfind _ (List.getElem_mem hi')
  rw [← hnumber, findMsg_of_mem hdistinct' (List.getElem_mem hi), Option.map_some] at hat
  rw [List.getElem_map, List.getElem_map]
  exact Option.some.inj hat

section
variable {s : State} {refs : List (Nat × Nat)} {g : Nat → Nat → Copy → Copy}

theorem changeEach_distinct (h : s.numbersDistinct) : (s.changeEach refs g).numbersDistinct := by
  rw [State.numbersDistinct, changeEach_numbers]; exact h

theorem changeEach_countsLowered (hdistinct : s.numbersDistinct) (hstation : ∀ k j c, (g k j c).station = c.station)
    (hlive : ∀ k j c, (g k j c).live = true → c.live = true) : (s.changeEach refs g).countsLowered s := by
  induction refs using List.reverseRecOn with
  | nil => exact .refl s
  | append_singleton refs r ih =>
    rw [changeEach_concat]
    exact (changeCopy_countsLowered (changeEach_distinct hdistinct) (hstation _ _) (hlive _ _)).trans ih

theorem changeEach_countsRaised (hdistinct : s.numbersDistinct) (hstation : ∀ k j c, (g k j c).station = c.station)
    (hlive : ∀ k j c, c.live = true → (g k j c).live = true) : (s.changeEach refs g).countsRaised s := by
  induction refs using List.reverseRecOn with
  | nil => exact .refl s
  | append_singleton refs r ih =>
    rw [changeEach_concat]
    exact (changeCopy_countsRaised (changeEach_distinct hdistinct) (hstation _ _) (hlive _ _)).trans ih

/-- A copy met on the way is as it was, or already changed. -/
theorem copyAt_changeEach_cases (hg : Settles g) {k j : Nat} {d : Copy}
    (h : (s.changeEach refs g).copyAt k j = some d) : ∃ c, s.copyAt k j = some c ∧ (d = c ∨ (k, j) ∈ refs ∧ d = g k j c) := by
  rw [copyAt_changeEach hg] at h
  obtain ⟨c, hc, hd⟩ := Option.map_eq_some_iff.mp h
  refine ⟨c, hc, ?_⟩
  by_cases hmem : (k, j) ∈ refs
  · rw [if_pos hmem] at hd; exact .inr ⟨hmem, hd.symm⟩
  · rw [if_neg hmem] at hd; exact .inl hd.symm

/-- A list is as it was where the changes are of no copy that its port holds. -/
theorem lists_changeEach (hg : Settles g) {q : Port}
    (hholder : ∀ r ∈ refs, ∀ c, s.copyAt r.1 r.2 = some c → c.holder ≠ some q ∧ (g r.1 r.2 c).holder ≠ some q) :
    (s.changeEach refs g).lists.get q = s.lists.get q := by
  induction refs using List.reverseRecOn with
  | nil => rfl
  | append_singleton refs r ih =>
    rw [changeEach_concat, ← ih fun r' hr' => hholder r' (List.mem_append_left _ hr')]
    cases hat : (s.changeEach refs g).copyAt r.1 r.2 with
    | none => rw [State.changeCopy_none hat]
    | some d =>
      have hd : d.holder ≠ some q := by
        obtain ⟨c, hc, hcases⟩ := copyAt_changeEach_cases hg hat
        have := hholder r (List.mem_append_right _ (List.mem_singleton.mpr rfl)) c hc
        rcases hcases with rfl | ⟨-, rfl⟩
        · exact this.1
        · exact this.2
      rw [changeCopy_lists hat]
      exact followHolder_lists_of_ne hd _

/-- The copy named by a reference is changed into FAILED. -/
def State.failsBy (s : State) (g : Nat → Nat → Copy → Copy) (r : Nat × Nat) : Bool :=
  (s.copyAt r.1 r.2).any fun c => c.state != some .failed && (g r.1 r.2 c).state == some .failed

/-- The status sets after the changes: COPY_FAILED at the consoles if a copy enters FAILED (R70). -/
theorem status_changeEach (hg : Settles g) (q : Port) :
    (s.changeEach refs g).status.get q = s.status.get q
      ||| if refs.any (s.failsBy g) = true ∧ s.roles.get q = .console then eventBit .copyFailed else 0 := by
  induction refs using List.reverseRecOn with
  | nil => simp [State.changeEach]
  | append_singleton refs r ih =>
    have hroles : (s.changeEach refs g).roles = s.roles := by rw [changeEach_frame]
    rw [changeEach_concat, List.any_append, List.any_cons, List.any_nil, Bool.or_false]
    cases hat : (s.changeEach refs g).copyAt r.1 r.2 with
    | none =>
      have hnone : s.copyAt r.1 r.2 = none := by
        rw [copyAt_changeEach hg] at hat
        exact Option.map_eq_none_iff.mp hat
      rw [State.changeCopy_none hat, ih, State.failsBy, hnone, Option.any_none, Bool.or_false]
    | some d =>
      obtain ⟨c, hc, hcases⟩ := copyAt_changeEach_cases hg hat
      have hstatus : ((s.changeEach refs g).changeCopy r.1 r.2 (g r.1 r.2)).status.get q = (s.changeEach refs g).status.get q ||| _ :=
        (congrArg (PerPort.get · q) (changeCopy_status hat (g r.1 r.2))).trans (statusIfFails_get (s.changeEach refs g) d _ q)
      rw [hstatus, ih, hroles]
      have hfails : s.failsBy g r = (c.state != some .failed && (g r.1 r.2 c).state == some .failed) := by
        rw [State.failsBy, hc, Option.any_some]
      rcases hcases with rfl | ⟨hmem, rfl⟩
      · have hstep : ((g r.1 r.2 d).state = some .failed ∧ d.state ≠ some .failed ∧ s.roles.get q = .console)
            ↔ s.failsBy g r = true ∧ s.roles.get q = .console := by
          rw [hfails, Bool.and_eq_true, bne_iff_ne, beq_iff_eq]; tauto
        rw [if_congr hstep rfl rfl, BitVec.or_assoc]
        cases refs.any (s.failsBy g) <;> cases s.failsBy g r <;> by_cases hq : s.roles.get q = .console <;> simp [hq]
      · have hany : (refs.any (s.failsBy g) || s.failsBy g r) = refs.any (s.failsBy g) := by
          cases hr : s.failsBy g r
          · rw [Bool.or_false]
          · rw [List.any_eq_true.mpr ⟨r, hmem, hr⟩, Bool.or_true]
        have hnot : ¬ ((g r.1 r.2 c).state = some .failed ∧ (g r.1 r.2 c).state ≠ some .failed ∧ s.roles.get q = .console) :=
          fun h => h.2.1 h.1
        rw [hany, hg, if_neg hnot]
        exact BitVec.or_zero

/-- The whole store after the changes, but for the phases. -/
theorem store_changeEach_phaseless (hdistinct : s.numbersDistinct) (hg : Settles g) : (s.changeEach refs g).store.map Message.phaseless
    = s.store.map fun m => { m.phaseless with copies := m.copiesAfter refs g } :=
  store_map_eq hdistinct (changeEach_numbers ..) fun m hm => by
    rw [findMsg_changeEach_phaseless hg, findMsg_of_mem hdistinct hm, Option.map_some]

end

/-! ### The copies that the changes take out of the live ones, or back among them -/

/-- A count after a change at each place, by the places where the change decides the test. -/
theorem countP_mapIdx_add {α : Type} (l : List α) (h : Nat → α → α) (p : α → Bool) :
    (l.mapIdx h).countP p + l.zipIdx.countP (fun x => p x.1 && !p (h x.2 x.1))
      = l.countP p + l.zipIdx.countP (fun x => !p x.1 && p (h x.2 x.1)) := by
  have hleft : (l.mapIdx h).countP p = l.zipIdx.countP fun x => p (h x.2 x.1) := by
    rw [List.mapIdx_eq_zipIdx_map, List.countP_map]; rfl
  have hright : l.countP p = l.zipIdx.countP fun x => p x.1 := by
    conv_lhs => rw [← List.zipIdx_map_fst 0 l, List.countP_map]
    rfl
  rw [hleft, hright]
  induction l.zipIdx with
  | nil => rfl
  | cons x xs ih =>
    cases hp : p x.1 <;> cases hpx : p (h x.2 x.1) <;> simp only [List.countP_cons, hp, hpx] <;> simp <;> omega

/-- The copies named by references that meet a test, message by message. -/
def State.countRefs (s : State) (refs : List (Nat × Nat)) (test : Message → Nat → Copy → Bool) : Nat :=
  (s.store.map fun m => m.copies.zipIdx.countP fun x => decide ((m.number, x.2) ∈ refs) && test m x.2 x.1).sum

section
variable {s : State} {refs : List (Nat × Nat)} {g : Nat → Nat → Copy → Copy}

/-- The live copies after the changes: those that go, and those that come. -/
theorem liveAt_changeEach (hdistinct : s.numbersDistinct) (hg : Settles g)
    (hstation : ∀ k j c, (g k j c).station = c.station) (e : Nat) :
    (s.changeEach refs g).liveAt e
        + s.countRefs refs (fun m j c => c.live && !(g m.number j c).live && c.station == e)
      = s.liveAt e + s.countRefs refs (fun m j c => !c.live && (g m.number j c).live && c.station == e) := by
  have hphase : Message.liveFor e = Message.liveFor e ∘ Message.phaseless := rfl
  rw [State.liveAt, hphase, ← List.map_map, store_changeEach_phaseless hdistinct hg, State.liveAt, State.countRefs,
    State.countRefs, List.map_map]
  rw [← List.sum_map_add, ← List.sum_map_add]
  refine congrArg List.sum (List.map_congr_left fun m _ => ?_)
  rw [Function.comp_apply, Message.liveFor, Message.liveFor, Message.copiesAfter]
  refine Eq.trans ?_ ((countP_mapIdx_add m.copies (fun j c => if (m.number, j) ∈ refs then g m.number j c else c)
    fun c => c.live && c.station == e).trans ?_)
  · refine congrArg (_ + ·) (List.countP_congr fun x _ => ?_)
    by_cases hmem : (m.number, x.2) ∈ refs
    · simp only [hmem, if_true, decide_true, Bool.true_and, hstation]
      cases x.1.live <;> cases (g m.number x.2 x.1).live <;> cases x.1.station == e <;> simp
    · simp only [hmem, if_false, decide_false, Bool.false_and]
      cases x.1.live <;> cases x.1.station == e <;> simp
  · refine congrArg (_ + ·) (List.countP_congr fun x _ => ?_)
    by_cases hmem : (m.number, x.2) ∈ refs
    · simp only [hmem, if_true, decide_true, Bool.true_and, hstation]
      cases x.1.live <;> cases (g m.number x.2 x.1).live <;> cases x.1.station == e <;> simp
    · simp only [hmem, if_false, decide_false, Bool.false_and]
      cases x.1.live <;> cases x.1.station == e <;> simp

end

end Sys2Proof.Machine
end

section
/-! PROOF. SET HAND-OFF: the copies that fail at a lowered limit (R71, R140). -/
namespace Sys2Proof.Machine

/-! ### The copies that meet a condition -/

section
variable {s : State} {ok : Message → Copy → Bool}

theorem mem_refsWhere {n j : Nat} :
    (n, j) ∈ s.refsWhere ok ↔ ∃ m ∈ s.store, m.number = n ∧ ∃ c, m.copies[j]? = some c ∧ ok m c = true := by
  simp only [State.refsWhere, List.mem_map, Prod.mk.injEq]
  constructor
  · rintro ⟨x, hx, hn, hj⟩
    obtain ⟨hm, hc, hok⟩ := Sys2Proof.Pairing.mem_cands_iff.mp hx
    exact ⟨x.msg, hm, hn, x.copy, hj ▸ hc, hok⟩
  · rintro ⟨m, hm, hn, c, hc, hok⟩
    exact ⟨⟨m, j, c⟩, Sys2Proof.Pairing.mem_cands_iff.mpr ⟨hm, hc, hok⟩, hn, rfl⟩

theorem mem_refsWhere_of_getElem? (hdistinct : s.numbersDistinct) {m : Message} (hm : m ∈ s.store) {j : Nat} {c : Copy}
    (hc : m.copies[j]? = some c) : (m.number, j) ∈ s.refsWhere ok ↔ ok m c = true := by
  rw [mem_refsWhere]
  constructor
  · rintro ⟨m', hm', hnumber, d, hd, hok⟩
    rw [List.inj_on_of_nodup_map hdistinct hm' hm hnumber] at hd hok
    rw [hc] at hd
    rw [Option.some.inj hd]
    exact hok
  · exact fun hok => ⟨m, hm, rfl, c, hc, hok⟩

theorem copiesAfter_refsWhere (hdistinct : s.numbersDistinct) {m : Message} (hm : m ∈ s.store) (f : Copy → Copy) :
    m.copiesAfter (s.refsWhere ok) (fun _ _ => f) = m.copies.map fun c => if ok m c then f c else c := by
  refine List.ext_getElem? fun j => ?_
  rw [getElem?_copiesAfter, List.getElem?_map]
  cases hc : m.copies[j]? with
  | none => rfl
  | some c => rw [Option.map_some, Option.map_some, if_congr (mem_refsWhere_of_getElem? hdistinct hm hc) rfl rfl]

theorem touched_refsWhere (hdistinct : s.numbersDistinct) {m : Message} (hm : m ∈ s.store) :
    m.touched (s.refsWhere ok) = m.copies.any (ok m) := by
  rw [Bool.eq_iff_iff, touched_eq_true_iff, List.any_eq_true]
  constructor
  · rintro ⟨j, hmem, hj⟩
    have hc := List.getElem?_eq_getElem hj
    exact ⟨_, List.getElem_mem hj, (mem_refsWhere_of_getElem? hdistinct hm hc).mp hmem⟩
  · rintro ⟨c, hc, hok⟩
    obtain ⟨j, hj⟩ := List.getElem?_of_mem hc
    exact ⟨j, (mem_refsWhere_of_getElem? hdistinct hm hj).mpr hok, (List.getElem?_eq_some_iff.mp hj).1⟩

theorem countRefs_refsWhere (hdistinct : s.numbersDistinct) (test : Message → Copy → Bool) :
    s.countRefs (s.refsWhere ok) (fun m _ c => test m c) = (s.store.map fun m => m.copies.countP fun c => ok m c && test m c).sum := by
  refine congrArg List.sum (List.map_congr_left fun m hm => ?_)
  have hright : (m.copies.countP fun c => ok m c && test m c) = m.copies.zipIdx.countP fun x => ok m x.1 && test m x.1 := by
    conv_lhs => rw [← List.zipIdx_map_fst 0 m.copies, List.countP_map]
    rfl
  rw [hright]
  refine List.countP_congr fun x hx => ?_
  have hmem := mem_refsWhere_of_getElem? (ok := ok) hdistinct hm (List.mem_zipIdx_iff_getElem?.mp hx)
  rw [Bool.and_eq_true, Bool.and_eq_true, decide_eq_true_iff, hmem]

theorem length_refsWhere (s : State) (ok : Message → Copy → Bool) :
    (s.refsWhere ok).length = (s.store.map fun m => m.copies.countP (ok m)).sum := by
  rw [State.refsWhere, List.length_map, State.cands, List.length_flatMap]
  refine congrArg List.sum (List.map_congr_left fun m _ => ?_)
  rw [List.length_map, ← List.countP_eq_length_filter]
  conv_rhs => rw [← List.zipIdx_map_fst 0 m.copies, List.countP_map]
  rfl

end

/-! ### The copies that fail (R71) -/

/-- Every change of the request: the copy fails. -/
def failing : Nat → Nat → Copy → Copy := fun _ _ c => c.become .failed

theorem failing_settles : Settles failing := fun _ _ _ => rfl

theorem failing_live (k j : Nat) (c : Copy) : (failing k j c).live = false := rfl

theorem limitFails_idle {old new : PerPrec} {prec : Prec} {c : Copy} (h : limitFails old new prec c = true) : c.idle = true := by
  simp only [limitFails, Bool.and_eq_true] at h
  exact h.1.1

/-- The copies that fail under new settings. -/
def State.limitRefs (s : State) (h : HandOffSettings) : List (Nat × Nat) :=
  s.refsWhere fun m c => limitFails s.handOff.limits h.limits m.prec c

/-- The copies failed, in the state that has the new settings. -/
def State.limitsLowered (s : State) (h : HandOffSettings) : State := { s with handOff := h }.changeEach (s.limitRefs h) failing

theorem serveSetHandOff_eq (tl tp tw tr : Half) (ll lp lw lr lapse : Byte) (s : State) :
    serveSetHandOff tl tp tw tr ll lp lw lr lapse s
      = (s.limitsLowered (handOffTaken tl tp tw tr ll lp lw lr lapse)).answer .ok
        (handOffBytes (handOffTaken tl tp tw tr ll lp lw lr lapse)
          ++ be16 (s.limitRefs (handOffTaken tl tp tw tr ll lp lw lr lapse)).length) := rfl

section
variable {s : State} {h : HandOffSettings}

theorem idle_of_mem_limitRefs (hdistinct : s.numbersDistinct) {r : Nat × Nat} (hr : r ∈ s.limitRefs h) :
    ∃ c, s.copyAt r.1 r.2 = some c ∧ c.idle = true := by
  obtain ⟨m, hm, hnumber, c, hc, hok⟩ := mem_refsWhere.mp hr
  refine ⟨c, ?_, limitFails_idle hok⟩
  rw [← hnumber, copyAt_of_findMsg (findMsg_of_mem hdistinct hm), hc]

theorem limitsLowered_frame (hdistinct : s.numbersDistinct) : s.limitsLowered h = { s with
    handOff := h, store := (s.limitsLowered h).store, book := (s.limitsLowered h).book, status := (s.limitsLowered h).status } := by
  have hlists : (s.limitsLowered h).lists = s.lists := by
    refine PerPort.ext_get fun q => lists_changeEach failing_settles fun r hr c hc => ?_
    obtain ⟨d, hd, hidle⟩ := idle_of_mem_limitRefs hdistinct hr
    have hcd : c = d := Option.some.inj (hc.symm.trans hd)
    exact ⟨by rw [hcd, holder_of_idle hidle]; simp, by simp [failing, Copy.become, Copy.holder, CopyState.holder]⟩
  refine (changeEach_frame ..).trans ?_
  rw [← State.limitsLowered, hlists]

theorem findMsg_limitsLowered (hdistinct : s.numbersDistinct) {n : Nat} {m : Message} (hm : s.findMsg n = some m)
    (hphase : m.copies.any (limitFails s.handOff.limits h.limits m.prec) = true → ∀ f t, m.phase ≠ .closed f t) :
    (s.limitsLowered h).findMsg n = some (if m.copies.any (limitFails s.handOff.limits h.limits m.prec)
      then Message.rephase s.clock { m with
        copies := m.copies.map fun c => if limitFails s.handOff.limits h.limits m.prec c then { c with state := some .failed } else c }
      else m) := by
  have htouched : m.touched (s.limitRefs h) = m.copies.any (limitFails s.handOff.limits h.limits m.prec) :=
    touched_refsWhere hdistinct (findMsg_mem hm)
  have hfind : State.findMsg { s with handOff := h } n = some m := hm
  rw [State.limitsLowered, findMsg_changeEach failing_settles, hfind, Option.map_some, Message.after, htouched, State.limitRefs]
  · unfold failing
    rw [copiesAfter_refsWhere hdistinct (findMsg_mem hm)]
    rfl
  · intro m' hm' ht f t hclosed
    rw [hfind] at hm'
    cases hm'
    exact absurd hclosed (hphase (htouched ▸ ht) f t)

theorem copyAt_limitsLowered (hdistinct : s.numbersDistinct) {n i : Nat} {m : Message} {c : Copy} (hm : s.findMsg n = some m)
    (hc : m.copies[i]? = some c) : (s.limitsLowered h).copyAt n i
      = some (if limitFails s.handOff.limits h.limits m.prec c then { c with state := some .failed } else c) := by
  have hat : State.copyAt { s with handOff := h } n i = some c := (copyAt_of_findMsg hm).trans hc
  have hmem : (n, i) ∈ s.limitRefs h ↔ limitFails s.handOff.limits h.limits m.prec c = true := by
    rw [← findMsg_number hm]
    exact mem_refsWhere_of_getElem? hdistinct (findMsg_mem hm) hc
  rw [State.limitsLowered, copyAt_changeEach failing_settles, hat, Option.map_some, if_congr hmem rfl rfl]
  rfl

theorem station_limitsLowered (hdistinct : s.numbersDistinct) (e : Nat) : (s.limitsLowered h).station e = (s.station e).map fun st => { st with
    waiting := st.waiting
      - (s.store.map fun m => m.copies.countP fun c => limitFails s.handOff.limits h.limits m.prec c && c.station == e).sum } := by
  have hdistinct' : State.numbersDistinct { s with handOff := h } := hdistinct
  have hlowered : (s.limitsLowered h).countsLowered { s with handOff := h } :=
    changeEach_countsLowered hdistinct' (fun _ _ _ => rfl) fun k j c hlive =>
      absurd hlive (by rw [failing_live]; exact Bool.false_ne_true)
  have hcount := liveAt_changeEach (refs := s.limitRefs h) hdistinct' failing_settles (fun _ _ _ => rfl) e
  have hnone : State.countRefs { s with handOff := h } (s.limitRefs h)
      (fun m j c => !c.live && (failing m.number j c).live && c.station == e) = 0 := by
    simp [State.countRefs, failing_live]
  have hgone : State.countRefs { s with handOff := h } (s.limitRefs h)
      (fun m j c => c.live && !(failing m.number j c).live && c.station == e)
      = (s.store.map fun m => m.copies.countP fun c => limitFails s.handOff.limits h.limits m.prec c && c.station == e).sum := by
    refine (countRefs_refsWhere hdistinct fun m c => c.live && !(failing m.number 0 c).live && c.station == e).trans ?_
    refine congrArg List.sum (List.map_congr_left fun m _ => List.countP_congr fun c _ => ?_)
    have hlive : limitFails s.handOff.limits h.limits m.prec c = true → c.live = true := fun hok => live_of_idle (limitFails_idle hok)
    simp only [failing_live, Bool.not_false, Bool.and_true, Bool.and_eq_true]
    tauto
  rw [hnone, hgone, ← State.limitsLowered, Nat.add_zero] at hcount
  rw [(hlowered e).2]
  refine congrArg (Option.map · (s.station e)) (funext fun st => ?_)
  rw [← hcount, Nat.add_sub_cancel_left]

theorem status_limitsLowered (hdistinct : s.numbersDistinct) (hsome : 0 < (s.limitRefs h).length) :
    (s.limitsLowered h).status = s.statusAt .copyFailed fun q => s.roles.get q == .console := by
  have hany : (s.limitRefs h).any (State.failsBy { s with handOff := h } failing) = true := by
    obtain ⟨r, hr⟩ := List.exists_mem_of_length_pos hsome
    obtain ⟨c, hc, hidle⟩ := idle_of_mem_limitRefs hdistinct hr
    refine List.any_eq_true.mpr ⟨r, hr, ?_⟩
    have hat : State.copyAt { s with handOff := h } r.1 r.2 = some c := hc
    have hstate : c.state ≠ some .failed := by
      rcases idle_iff.mp hidle with h | ⟨p, ends, h⟩ <;> rw [h] <;> simp
    rw [State.failsBy, hat, Option.any_some, Bool.and_eq_true, bne_iff_ne]
    exact ⟨hstate, rfl⟩
  refine PerPort.ext_get fun q => ?_
  rw [State.limitsLowered, status_changeEach failing_settles, hany, State.statusAt, PerPort.get_build]
  by_cases hq : s.roles.get q = .console <;> simp [hq]

end

/-- Settles O25. -/
theorem handOffSettingsFailCopiesAtALoweredLimit : Obligations.HandOffSettingsFailCopiesAtALoweredLimit := by
  intro p tag tl tp tw tr ll lp lw lr lapse s hfree hconsole hdistinct time limit limits fails failed
  have hrole : mayUse (s.roles.get p) 0x35 = true := by rw [hconsole]; rfl
  generalize hh : handOffTaken tl tp tw tr ll lp lw lr lapse = h
  have htaken : h = ⟨⟨time tl, time tp, time tw, time tr⟩, limits, max 1 (min 7 lapse.toNat)⟩ := hh.symm
  have hlimits : h.limits = limits := by rw [htaken]
  have hfails (m : Message) : fails m = limitFails s.handOff.limits h.limits m.prec := by
    rw [hlimits]
    refine funext fun c => ?_
    simp only [fails, limitFails, Copy.idle]
    cases c.state with
    | none => rfl
    | some x => cases x <;> simp
  have hfailed : failed = (s.limitRefs h).length := by
    simp only [failed, hfails]
    exact (length_refsWhere ..).symm
  have hserve := serveSetHandOff_eq tl tp tw tr ll lp lw lr lapse s
  rw [hh, limitsLowered_frame hdistinct, ← hfailed] at hserve
  obtain ⟨t, hexec, hbehind, hanswers⟩ :=
    answered_of_serve (i := .setHandOff p tag tl tp tw tr ll lp lw lr lapse) rfl hfree rfl hrole rfl hserve rfl
  have hstore : t.store = (s.limitsLowered h).store := (of_behind State.store hbehind :)
  have hbook : t.book = (s.limitsLowered h).book := (of_behind State.book hbehind :)
  have hstatus : t.status = (s.limitsLowered h).status := (of_behind State.status hbehind :)
  have hfind (k : Nat) : t.findMsg k = (s.limitsLowered h).findMsg k := by rw [State.findMsg, hstore, State.findMsg]
  have hhandOff : t.handOff = h := (of_behind State.handOff hbehind :)
  simp only [hfails]
  refine ⟨t, hexec, hhandOff.trans htaken, fun n i m c hm hc => ?_, ?_, fun n m f hm hf => ?_, fun n m hm hnone => ?_, fun e => ?_,
    fun hzero => ?_, fun hpos => ?_, ?_, ?_⟩
  · rw [State.copyAt, hfind, ← State.copyAt]
    exact copyAt_limitsLowered hdistinct hm hc
  · rw [hstore]
    exact changeEach_numbers ..
  · rw [hfind, findMsg_limitsLowered hdistinct hm fun _ g x => by rw [hf]; simp]
    refine congrArg some ?_
    generalize hcopies : (m.copies.map fun c =>
      if limitFails s.handOff.limits h.limits m.prec c then ({ c with state := some .failed } : Copy) else c) = copies
    cases hany : m.copies.any (limitFails s.handOff.limits h.limits m.prec)
    · have hsame : copies = m.copies := by
        rw [← hcopies]
        conv_rhs => rw [← List.map_id m.copies]
        exact List.map_congr_left fun c hc => if_neg (List.any_eq_false.mp hany c hc)
      rw [hsame, if_neg Bool.false_ne_true, Bool.and_false, if_neg Bool.false_ne_true]
    · rw [if_pos rfl, Bool.and_true, Message.rephase, hf]
  · rw [hfind, findMsg_limitsLowered hdistinct hm fun hany => absurd (hnone.symm.trans hany) Bool.false_ne_true,
      hnone, if_neg Bool.false_ne_true]
  · rw [State.station, hbook]
    exact station_limitsLowered hdistinct e
  · have hrefs : s.limitRefs h = [] := List.length_eq_zero_iff.mp (hfailed.symm.trans hzero)
    have hsame : s.limitsLowered h = { s with handOff := h } := by rw [State.limitsLowered, hrefs]; rfl
    rw [hstore, hbook, hstatus, hsame]
    exact ⟨rfl, rfl, rfl⟩
  · rw [hstatus, status_limitsLowered hdistinct (hfailed ▸ hpos)]
  · rw [hbehind, hstore, hbook, hstatus, hhandOff]
  · have hbytes : handOffBytes h = be16 (time tl) ++ be16 (time tp) ++ be16 (time tw) ++ be16 (time tr)
        ++ be8 (limit ll) ++ be8 (limit lp) ++ be8 (limit lw) ++ be8 (limit lr) ++ be8 (max 1 (min 7 lapse.toNat)) := by
      rw [htaken]; rfl
    rw [← hbytes]
    exact hanswers

end Sys2Proof.Machine
end

section
/-! PROOF. The waiting counts after changes that are told one by one, and REQUEUE and PIN (R57, R80, R81, R83, R84). -/
namespace Sys2Proof.Machine

section
variable {s : State} {refs : List (Nat × Nat)} {g : Nat → Nat → Copy → Copy}

/-- The changes that meet a test, counted over the references. -/
def State.countChanges (s : State) (refs : List (Nat × Nat)) (test : Nat × Nat → Copy → Bool) : Nat :=
  refs.countP fun r => (s.copyAt r.1 r.2).any (test r)

theorem countChanges_concat (test : Nat × Nat → Copy → Bool) {r : Nat × Nat} {c : Copy} (h : s.copyAt r.1 r.2 = some c) :
    s.countChanges (refs ++ [r]) test = s.countChanges refs test + if test r c then 1 else 0 := by
  rw [State.countChanges, List.countP_append, List.countP_singleton, h, Option.any_some, ← State.countChanges]

theorem countChanges_concat_none (test : Nat × Nat → Copy → Bool) {r : Nat × Nat} (h : s.copyAt r.1 r.2 = none) :
    s.countChanges (refs ++ [r]) test = s.countChanges refs test := by
  rw [State.countChanges, List.countP_append, List.countP_singleton, h, Option.any_none, ← State.countChanges]
  rfl

/-- A copy that is not yet changed. -/
theorem copyAt_changeEach_of_not_mem (hg : Settles g) {r : Nat × Nat} (h : r ∉ refs) :
    (s.changeEach refs g).copyAt r.1 r.2 = s.copyAt r.1 r.2 := by
  rw [copyAt_changeEach hg]
  cases hc : s.copyAt r.1 r.2 with
  | none => rfl
  | some c => rw [Option.map_some, if_neg h]

theorem not_mem_of_nodup_concat {α : Type} {l : List α} {a : α} (h : (l ++ [a]).Nodup) : l.Nodup ∧ a ∉ l := by
  rw [← List.concat_eq_append, List.nodup_concat] at h
  exact h.symm

/-- The waiting counts when each change brings its copy back among the live ones, or leaves it there. -/
theorem station_changeEach_raised (hg : Settles g) (hnodup : refs.Nodup)
    (hlive : ∀ r ∈ refs, ∀ c, s.copyAt r.1 r.2 = some c → c.live = true → (g r.1 r.2 c).live = true) (e : Nat) :
    (s.changeEach refs g).station e = (s.station e).map fun st => { st with
      waiting := st.waiting + s.countChanges refs fun r c => !c.live && (g r.1 r.2 c).live && c.station == e } := by
  induction refs using List.reverseRecOn with
  | nil => cases h : s.station e <;> simp [State.changeEach, State.countChanges, h]
  | append_singleton refs r ih =>
    obtain ⟨hrefs, hr⟩ := not_mem_of_nodup_concat hnodup
    have ih := ih hrefs fun r' hr' => hlive r' (List.mem_append_left _ hr')
    have hat := copyAt_changeEach_of_not_mem (s := s) hg hr
    rw [changeEach_concat]
    cases hc : s.copyAt r.1 r.2 with
    | none => rw [State.changeCopy_none (hat.trans hc), ih, countChanges_concat_none _ hc]
    | some c =>
      have hlive := hlive r (List.mem_append_right _ (List.mem_singleton.mpr rfl)) c hc
      rw [station_changeCopy (hat.trans hc), ih, Option.map_map, countChanges_concat _ hc]
      refine congrArg (Option.map · (s.station e)) (funext fun st => ?_)
      by_cases he : c.station = e
      · cases hb : c.live <;> cases ha : (g r.1 r.2 c).live <;> simp [he, Station.recount, Nat.add_assoc, hb, ha] at hlive ⊢
      · simp [he]

/-- The waiting counts when each change takes its copy out of the live ones, or leaves it as live as it was. -/
theorem station_changeEach_lowered (hg : Settles g) (hnodup : refs.Nodup)
    (hlive : ∀ r ∈ refs, ∀ c, s.copyAt r.1 r.2 = some c → (g r.1 r.2 c).live = true → c.live = true) (e : Nat) :
    (s.changeEach refs g).station e = (s.station e).map fun st => { st with
      waiting := st.waiting - s.countChanges refs fun r c => c.live && !(g r.1 r.2 c).live && c.station == e } := by
  induction refs using List.reverseRecOn with
  | nil => cases h : s.station e <;> simp [State.changeEach, State.countChanges, h]
  | append_singleton refs r ih =>
    obtain ⟨hrefs, hr⟩ := not_mem_of_nodup_concat hnodup
    have ih := ih hrefs fun r' hr' => hlive r' (List.mem_append_left _ hr')
    have hat := copyAt_changeEach_of_not_mem (s := s) hg hr
    rw [changeEach_concat]
    cases hc : s.copyAt r.1 r.2 with
    | none => rw [State.changeCopy_none (hat.trans hc), ih, countChanges_concat_none _ hc]
    | some c =>
      have hlive := hlive r (List.mem_append_right _ (List.mem_singleton.mpr rfl)) c hc
      rw [station_changeCopy (hat.trans hc), ih, Option.map_map, countChanges_concat _ hc]
      refine congrArg (Option.map · (s.station e)) (funext fun st => ?_)
      by_cases he : c.station = e
      · cases hb : c.live <;> cases ha : (g r.1 r.2 c).live <;> simp [he, Station.recount, Nat.sub_sub, hb, ha] at hlive ⊢
      · simp [he]

end

/-! ### REQUEUE (R83, R84) -/

theorem drop_take_zipIdx {α : Type} (l : List α) (k i : Nat) :
    ((l.zipIdx k).drop i).take 1 = (l.zipIdx k).filter fun x => k + i == x.2 := by
  induction l generalizing k i with
  | nil => simp
  | cons x xs ih =>
    rw [List.zipIdx_cons]
    cases i with
    | zero =>
      have hrest : (xs.zipIdx (k + 1)).filter (fun x => k + 0 == x.2) = [] := List.filter_eq_nil_iff.mpr fun y hy => by
        have := List.le_snd_of_mem_zipIdx hy
        simp; omega
      simp only [Nat.add_zero] at hrest
      simp [hrest]
    | succ i =>
      have hne : (k + (i + 1) == k) = false := by simp
      rw [List.drop_succ_cons, ih, List.filter_cons, hne, if_neg Bool.false_ne_true]
      have : k + 1 + i = k + (i + 1) := by omega
      rw [this]

/-- The copies that a REQUEUE of a message acts on: the selected ones that are FAILED. -/
def requeues (i j : Nat) (c : Copy) : Bool := (i == 255 || i == j) && c.state == some .failed

/-- The places of the copies that a REQUEUE acts on. -/
def Message.requeueRefs (m : Message) (i : Nat) : List (Nat × Nat) :=
  (m.copies.zipIdx.filter fun x => requeues i x.2 x.1).map fun x => (m.number, x.2)

theorem selected_filter {b : Byte} {sel : Selector} (h : selectorOf b = some sel) (m : Message) :
    (m.selected sel).filter (fun ci => ci.1.isFailed) = m.copies.zipIdx.filter fun x => requeues b.toNat x.2 x.1 := by
  unfold selectorOf at h
  split at h
  next hb =>
    have hall : (b.toNat == 255) = false := by rw [beq_eq_false_iff_ne]; omega
    cases h
    simp only [Message.selected, drop_take_zipIdx, List.filter_filter, requeues, hall, Bool.false_or, Nat.zero_add]
    exact List.filter_congr fun x _ => Bool.and_comm ..
  next =>
    split at h
    next hb =>
      cases h
      simp only [Message.selected, requeues, show (b.toNat == 255) = true from beq_iff_eq.mpr hb, Bool.true_or, Bool.true_and]
      rfl
    next => cases h

section
variable {m : Message} {i : Nat}

theorem mem_requeueRefs {k j : Nat} :
    (k, j) ∈ m.requeueRefs i ↔ k = m.number ∧ ∃ c, m.copies[j]? = some c ∧ requeues i j c = true := by
  simp only [Message.requeueRefs, List.mem_map, List.mem_filter, Prod.mk.injEq]
  constructor
  · rintro ⟨x, ⟨hx, hok⟩, hk, rfl⟩
    exact ⟨hk.symm, x.1, List.mem_zipIdx_iff_getElem?.mp hx, hok⟩
  · rintro ⟨hk, c, hc, hok⟩
    exact ⟨(c, j), ⟨List.mem_zipIdx_iff_getElem?.mpr hc, hok⟩, hk.symm, rfl⟩

theorem nodup_requeueRefs (m : Message) (i : Nat) : (m.requeueRefs i).Nodup := by
  have hsnd : (m.requeueRefs i).map Prod.snd = (m.copies.zipIdx.filter fun x => requeues i x.2 x.1).map Prod.snd := by
    rw [Message.requeueRefs, List.map_map]; rfl
  refine List.Nodup.of_map Prod.snd ?_
  rw [hsnd]
  refine List.Nodup.sublist (List.filter_sublist.map _) ?_
  rw [List.zipIdx_map_snd]
  exact List.nodup_range'

end

section
variable {s : State}

theorem requeued_of_failed {prec : Prec} {c : Copy} (h : c.state = some .failed) :
    s.requeued prec c = { c with state := some (s.entryState prec c), attempts := 0 } := by
  rw [State.requeued, if_pos (by rw [Copy.isFailed, h]; rfl)]

theorem requeued_of_not_failed {prec : Prec} {c : Copy} (h : c.state ≠ some .failed) : s.requeued prec c = c := by
  rw [State.requeued, if_neg (by rw [Copy.isFailed, beq_iff_eq]; exact h)]

theorem entryState_idle (s : State) (prec : Prec) (c : Copy) : ({ c with state := some (s.entryState prec c), attempts := 0 } : Copy).idle = true :=
  idle_iff.mpr <| (entryState_cases s prec c).imp (congrArg some) fun ⟨p, ends, h, _⟩ => ⟨p, ends, congrArg some h⟩

theorem requeued_live {prec : Prec} {c : Copy} (h : c.state = some .failed) : (s.requeued prec c).live = true := by
  rw [requeued_of_failed h]
  exact live_of_idle (entryState_idle s prec c)

theorem requeued_settles (s : State) (prec : Prec) : Settles fun _ _ => s.requeued prec := by
  intro _ _ c
  by_cases h : c.state = some .failed
  · refine requeued_of_not_failed fun hfailed => ?_
    have hlive := requeued_live (s := s) (prec := prec) h
    rw [Copy.live, hfailed] at hlive
    cases hlive
  · dsimp only
    rw [requeued_of_not_failed h]
    exact requeued_of_not_failed h

theorem requeued_closesOnce (s : State) (prec : Prec) (m : Message) : m.closesOnce fun _ _ => s.requeued prec := by
  intro f t _ j c hlive
  have h : c.state ≠ some .failed := fun h => by rw [Copy.terminal, h] at hlive; cases hlive
  exact (congrArg Copy.terminal (requeued_of_not_failed h)).trans hlive

/-- A REQUEUE served. -/
def State.requeue (s : State) (m : Message) (i : Nat) : State := s.changeEach (m.requeueRefs i) fun _ _ => s.requeued m.prec

theorem serveRequeue_eq {number : Half} {b : Byte} {sel : Selector} {m : Message} (hn : numberOf number = some number.toNat)
    (hsel : selectorOf b = some sel) (hm : s.findMsg number.toNat = some m) : serveRequeue number b s =
      if (m.selected sel).isEmpty then s.answer .noSuch
      else if m.isOpen then s.answer .state
      else if (m.requeueRefs b.toNat).isEmpty then s.answer .state
      else (s.requeue m b.toNat).answer .ok (be8 (m.copies.zipIdx.countP fun x => requeues b.toNat x.2 x.1)
        ++ be8 (m.copies.zipIdx.countP fun x => requeues b.toNat x.2 x.1
          && match s.entryState m.prec x.1 with | .heldFor .. => true | _ => false)) := by
  have hfilter := selected_filter hsel m
  have hempty : (!(m.selected sel).any fun ci => ci.1.isFailed) = (m.requeueRefs b.toNat).isEmpty := by
    rw [Message.requeueRefs, List.isEmpty_map, ← hfilter, Bool.eq_iff_iff, List.isEmpty_iff, List.filter_eq_nil_iff, Bool.not_eq_true',
      List.any_eq_false]
  have hfold : ((m.selected sel).filter fun ci => ci.1.isFailed).foldl
      (fun t ci => t.changeCopy number.toNat ci.2 (s.requeued m.prec)) s = s.requeue m b.toNat := by
    rw [hfilter, State.requeue, State.changeEach, Message.requeueRefs, List.foldl_map, findMsg_number hm]
  have hcount (q : Copy × Nat → Bool) : ((m.selected sel).filter fun ci => ci.1.isFailed).countP q
      = m.copies.zipIdx.countP fun x => requeues b.toNat x.2 x.1 && q x := by
    rw [hfilter, List.countP_filter]
    exact List.countP_congr fun x _ => by rw [Bool.and_comm]
  have hlength : ((m.selected sel).filter fun ci => ci.1.isFailed).length = m.copies.zipIdx.countP fun x => requeues b.toNat x.2 x.1 := by
    rw [hfilter, List.countP_eq_length_filter]
  simp only [serveRequeue, hn, hsel, hm, hempty, hfold, hlength]
  refine if_congr Iff.rfl rfl (if_congr Iff.rfl rfl (if_congr Iff.rfl rfl (congrArg (fun x => (s.requeue m b.toNat).answer .ok x) ?_)))
  exact congrArg (_ ++ be8 ·) (hcount _)

theorem failed_of_requeues {i j : Nat} {c : Copy} (h : requeues i j c = true) : c.state = some .failed := by
  simp only [requeues, Bool.and_eq_true, beq_iff_eq] at h
  exact h.2

theorem failed_of_mem_requeueRefs {m : Message} {i : Nat} (hm : s.findMsg m.number = some m) {r : Nat × Nat} (hr : r ∈ m.requeueRefs i)
    {c : Copy} (hc : s.copyAt r.1 r.2 = some c) : c.state = some .failed := by
  obtain ⟨hk, d, hd, hok⟩ := mem_requeueRefs.mp hr
  rw [hk, copyAt_of_findMsg hm, hd] at hc
  rw [← Option.some.inj hc]
  exact failed_of_requeues hok

/-- The waiting counts after a REQUEUE. -/
theorem station_requeue {m : Message} {i : Nat} (hm : s.findMsg m.number = some m) (e : Nat) :
    (s.requeue m i).station e = (s.station e).map fun st => { st with
      waiting := st.waiting + m.copies.zipIdx.countP fun x => requeues i x.2 x.1 && x.1.station == e } := by
  refine (station_changeEach_raised (requeued_settles s m.prec) (nodup_requeueRefs m i)
    (fun r hr c hc _ => requeued_live (failed_of_mem_requeueRefs hm hr hc)) e).trans ?_
  refine congrArg (Option.map · (s.station e)) (funext fun st => ?_)
  refine congrArg (fun k => { st with waiting := st.waiting + k }) ?_
  rw [State.countChanges, Message.requeueRefs, List.countP_map, List.countP_filter]
  refine List.countP_congr fun x hx => ?_
  have hat : s.copyAt m.number x.2 = some x.1 := (copyAt_of_findMsg hm).trans (List.mem_zipIdx_iff_getElem?.mp hx)
  simp only [Function.comp_apply, hat, Option.any_some]
  cases hok : requeues i x.2 x.1
  · simp
  · have hfailed := failed_of_requeues hok
    have hlive : x.1.live = false := by rw [Copy.live, hfailed]; rfl
    simp [hlive, requeued_live hfailed]

theorem requeue_eq {m : Message} {i : Nat} (hm : s.findMsg m.number = some m) : s.requeue m i = { s with
    store := (s.requeue m i).store, book := (s.requeue m i).book } := by
  have hfailed {r : Nat × Nat} (hr : r ∈ m.requeueRefs i) {c : Copy} (hc : s.copyAt r.1 r.2 = some c) : c.state = some .failed :=
    failed_of_mem_requeueRefs hm hr hc
  have hlists : (s.requeue m i).lists = s.lists := by
    refine PerPort.ext_get fun q => lists_changeEach (requeued_settles s m.prec) fun r hr c hc => ⟨?_, ?_⟩
    · simp [Copy.holder, hfailed hr hc, CopyState.holder]
    · rw [requeued_of_failed (hfailed hr hc), holder_of_idle (entryState_idle ..)]
      simp
  have hstatus : (s.requeue m i).status = s.status := by
    have hnone : (m.requeueRefs i).any (s.failsBy fun _ _ => s.requeued m.prec) = false := by
      refine List.any_eq_false.mpr fun r hr => ?_
      rw [State.failsBy]
      cases hc : s.copyAt r.1 r.2 with
      | none => simp
      | some c => simp [hfailed hr hc]
    refine PerPort.ext_get fun q => (status_changeEach (requeued_settles s m.prec) q).trans ?_
    rw [hnone, if_neg fun h => Bool.false_ne_true h.1]
    exact BitVec.or_zero
  refine (changeEach_frame ..).trans ?_
  rw [← State.requeue, hlists, hstatus]

end

/-! ### PIN (R80, R81) -/

section
variable {s : State} {n i : Nat} {c : Copy}

theorem updEntry_self {p : Port} (h : ∀ e ∈ s.lists.get p, e.number = n → e.index = i → e.withdrawing = true) :
    s.updEntry p n i (fun e => { e with withdrawing := true }) = s := by
  have hmap : (s.lists.get p).map (fun e => if e.names n i then { e with withdrawing := true } else e) = s.lists.get p := by
    conv_rhs => rw [← List.map_id (s.lists.get p)]
    refine List.map_congr_left fun e he => ?_
    by_cases hnames : e.names n i = true
    · have hsame := hnames
      simp only [Entry.names, Bool.and_eq_true, beq_iff_eq] at hsame
      rw [if_pos hnames, ← h e he hsame.1 hsame.2]
      rfl
    · exact if_neg hnames
  have hlists : s.lists.set p (s.lists.get p) = s.lists := PerPort.ext_get fun q => by
    rw [PerPort.get_set]
    split
    next hq => rw [hq]
    next => rfl
  rw [State.updEntry, hmap, hlists]

/-- A change that keeps the copy's holder, with every mark set already that it sets, touches the store alone. -/
theorem changeCopy_in_place (h : s.copyAt n i = some c) {f : Copy → Copy} (hlive : (f c).live = c.live) (hholder : (f c).holder = c.holder)
    (hmark : ∀ j, (f c).state = some (.withdrawing j) → ∀ e ∈ s.lists.get j, e.number = n → e.index = i → e.withdrawing = true)
    (hstate : (f c).state ≠ some .failed ∨ c.state = some .failed) :
    s.changeCopy n i f = { s with store := (s.changeCopy n i f).store } := by
  have hbook : (s.changeCopy n i f).book = s.book := by
    rw [changeCopy_book h, hlive]
    exact modify_map_id fun st => by cases c.live <;> rfl
  have hlists : (s.changeCopy n i f).lists = s.lists := by
    rw [changeCopy_lists h, State.followHolder, hholder]
    cases c.holder with
    | none => rfl
    | some j =>
      dsimp only
      rw [if_pos (beq_self_eq_true _)]
      split
      next hw => rw [updEntry_self (hmark j (beq_iff_eq.mp hw))]
      next => rfl
  have hstatus : (s.changeCopy n i f).status = s.status := by
    rw [changeCopy_status h, if_neg]
    rintro ⟨hf, hc⟩
    exact hstate.elim (absurd hf) hc
  conv_lhs => rw [State.changeCopy_frame, hbook, hlists, hstatus]

end

/-- A copy as a PIN leaves it, field by field. -/
theorem pinTo_eq (target : Option Port) (c : Copy) : c.pinTo target = { c with
    pinned := target
    state := match target, c.state with
      | some k, some (.heldFor h ends) => if h = k then some (.heldFor h ends) else some .waiting
      | _, x => x } := by
  unfold Copy.pinTo
  cases target with
  | none => cases c; rfl
  | some k =>
    cases hstate : c.state with
    | none => cases c; cases hstate; rfl
    | some x =>
      cases x with
      | heldFor h ends => by_cases hk : h = k <;> simp [hk, Copy.become, hstate]
      | _ => cases c; cases hstate; rfl

theorem pinTo_cases (target : Option Port) (c : Copy) :
    (c.pinTo target).state = c.state ∨ c.idle = true ∧ (c.pinTo target).state = some .waiting := by
  unfold Copy.pinTo
  split
  next k h ends hstate =>
    split
    · exact .inl rfl
    · exact .inr ⟨idle_iff.mpr (.inr ⟨h, ends, hstate⟩), rfl⟩
  next => exact .inl rfl

theorem not_pinnable_of_code {c : Copy} (h : c.code ∈ [4, 5, 7]) : c.pinnable = false := by
  unfold Copy.code at h
  unfold Copy.pinnable
  cases hstate : c.state with
  | none => rfl
  | some x => rw [hstate] at h; cases x <;> simp [copyCode] at h ⊢

theorem changeCopy_pinTo {s : State} {n i : Nat} {c : Copy} {pinned : Option Port} (h : s.copyAt n i = some c)
    (hmark : ∀ j e, c.state = some (.withdrawing j) → e ∈ s.lists.get j → e.number = n → e.index = i → e.withdrawing = true) :
    s.changeCopy n i (Copy.pinTo pinned) = { s with store := (s.changeCopy n i (Copy.pinTo pinned)).store } := by
  rcases pinTo_cases pinned c with hstate | ⟨hidle, hstate⟩
  · refine changeCopy_in_place h ?_ ?_ (fun j hj e he => hmark j e (hstate ▸ hj) he) ?_
    · rw [Copy.live, Copy.live, hstate]
    · rw [Copy.holder, Copy.holder, hstate]
    · rw [hstate]; exact (em _).symm
  · refine changeCopy_in_place h ?_ ?_ (fun j hj => ?_) ?_
    · rw [live_of_idle hidle, Copy.live, hstate]; rfl
    · rw [holder_of_idle hidle, Copy.holder, hstate]; rfl
    · rw [hstate] at hj; cases hj
    · rw [hstate]; exact .inl (by simp)

section
variable {number : Half} {index target : Byte} {pinned : Option Port} {s : State}

theorem servePin_eq (hn : numberOf number = some number.toNat) (hi : indexOf index = some index.toNat)
    (ht : pinTarget target = some pinned) (hchannel : ∀ k, pinned = some k → s.roles.get k = .channel) :
    servePin number index target s = (s.findMsg number.toNat).elim (s.answer .noSuch) fun m =>
      m.copies[index.toNat]?.elim (s.answer .noSuch) fun c =>
        if c.isLocal then s.answer .badField
        else if m.isOpen || !c.pinnable then s.answer .state
        else (s.changeCopy number.toNat index.toNat (Copy.pinTo pinned)).answer .ok
          (bePort c.pinned ++ bePort pinned ++ be8 (c.pinTo pinned).code) := by
  have htest : ((pinned.map fun q => !s.isChannel q).getD false) = false := by
    cases pinned with
    | none => rfl
    | some k => simp [isChannel_iff.mpr (hchannel k rfl)]
  simp only [servePin, hn, hi, ht, htest, Bool.false_eq_true, if_false]
  cases s.findMsg number.toNat with
  | none => rfl
  | some m => dsimp only [Option.elim_some]; cases m.copies[index.toNat]? <;> rfl

theorem pinnable_iff {c : Copy} : c.pinnable = true ↔ c.code ∈ [0, 1, 2, 3, 6] := by
  unfold Copy.pinnable Copy.code
  cases c.state with
  | none => simp
  | some x => cases x <;> simp [copyCode]

theorem pinTarget_eq (h : if target.toNat = 255 then pinned = none else pinned ≠ none ∧ pinned = portOf target) :
    pinTarget target = some pinned := by
  unfold pinTarget
  split at h
  next hb => rw [if_pos hb, h]
  next hb =>
    rw [if_neg hb, ← h.2]
    cases pinned with
    | none => exact absurd rfl h.1
    | some k => rfl

theorem servePin_badField (hbad : number.toNat = 0 ∨ 9999 < number.toNat ∨ 7 < index.toNat
      ∨ (target.toNat ≠ 255 ∧ ∀ k, portOf target = some k → s.roles.get k ≠ .channel)) :
    servePin number index target s = s.answer .badField := by
  unfold servePin
  split
  next k hn hi ht =>
    rcases hbad with h | h | h | ⟨hb, hrole⟩
    · rw [numberOf_eq_none (.inl h)] at hn; cases hn
    · rw [numberOf_eq_none (.inr h)] at hn; cases hn
    · rw [indexOf_eq_none h] at hi; cases hi
    · rw [pinTarget, if_neg hb] at ht
      obtain ⟨q, hq, rfl⟩ := Option.map_eq_some_iff.mp ht
      rw [if_pos]
      simp [State.isChannel, hrole q hq]
  next => rfl

end

theorem selectorOf_eq_none {b : Byte} (h : 7 < b.toNat) (h' : b.toNat ≠ 255) : selectorOf b = none := by
  rw [selectorOf, if_neg (by omega), if_neg h']

theorem selectorOf_isSome {b : Byte} (h : b.toNat ≤ 7 ∨ b.toNat = 255) : ∃ sel, selectorOf b = some sel := by
  unfold selectorOf
  by_cases h7 : b.toNat ≤ 7
  · exact ⟨_, if_pos h7⟩
  · exact ⟨_, (if_neg h7).trans (if_pos (h.resolve_left h7))⟩

/-- Whether a selector selects no copy at all. -/
theorem selected_isEmpty {b : Byte} {sel : Selector} (h : selectorOf b = some sel) (m : Message) :
    (m.selected sel).isEmpty = if b.toNat ≤ 7 then decide (m.copies.length ≤ b.toNat) else m.copies.isEmpty := by
  unfold selectorOf at h
  split at h
  next hb =>
    cases h
    rw [if_pos hb, Bool.eq_iff_iff, List.isEmpty_iff, Message.selected, List.take_eq_nil_iff, List.drop_eq_nil_iff, List.length_zipIdx,
      decide_eq_true_iff]
    simp
  next hb =>
    split at h
    next => cases h; rw [if_neg hb, Bool.eq_iff_iff, List.isEmpty_iff, List.isEmpty_iff, Message.selected, List.zipIdx_eq_nil_iff]
    next => cases h

/-- Settles O51. -/
theorem pinAndRequeueActOnCopies : Obligations.PinAndRequeueActOnCopies := by
  intro p tag number s hfree hconsole n
  have hrole (kind : Byte) : mayUse (s.roles.get p) kind = mayUse .console kind := by rw [hconsole]
  refine ⟨?_, ?_⟩
  · intro index target i answered refused
    have answer {u : State} {r : Result} {fields : List Byte} (h : servePin number index target s = u.answer r fields)
        (hunits : u.units = s.units) : ∃ t, answered t r fields ∧ t.behind = u.behind := by
      obtain ⟨t, hexec, hbehind, hanswers⟩ :=
        answered_of_serve (i := .pin p tag number index target) rfl hfree rfl (hrole _) rfl h hunits
      exact ⟨t, ⟨hexec, hanswers⟩, hbehind⟩
    refine ⟨fun hbad => answer (servePin_badField hbad) rfl, fun pinned h1 h2 h7 htarget hchannel => ?_⟩
    have hserve := servePin_eq (numberOf_eq_some h1 h2) (indexOf_eq_some h7) (pinTarget_eq htarget) hchannel
    refine ⟨fun hnone => answer ?_ rfl, fun m c hm hc => ?_⟩
    · rw [hserve]
      cases hm : s.findMsg number.toNat with
      | none => rfl
      | some m =>
        have hc : m.copies[index.toNat]? = none := (copyAt_of_findMsg hm).symm.trans hnone
        rw [Option.elim_some, hc, Option.elim_none]
    have hat : s.copyAt number.toNat index.toNat = some c := (copyAt_of_findMsg hm).trans hc
    rw [show s.findMsg number.toNat = some m from hm, Option.elim_some, show m.copies[index.toNat]? = some c from hc,
      Option.elim_some] at hserve
    have hlocal : c.isLocal = true ↔ c.station = 0 := beq_iff_eq
    refine ⟨fun hzero => answer ?_ rfl, fun hzero hbad => answer ?_ rfl, ?_⟩
    · rw [hserve, if_pos (hlocal.mpr hzero)]
    · rw [hserve, if_neg (mt hlocal.mp hzero), if_pos]
      rcases hbad with h | h
      · rw [isOpen_iff.mpr h, Bool.true_or]
      · rw [not_pinnable_of_code h, Bool.not_false, Bool.or_true]
    intro hzero hopen hcode hmark after
    have hpin : after = c.pinTo pinned := (pinTo_eq pinned c).symm
    have halone := changeCopy_pinTo hat (pinned := pinned) hmark
    have hbecomes := changeCopy_becomes hat (Copy.pinTo pinned)
    rw [if_neg (mt hlocal.mp hzero), isOpen_eq_false_iff.mpr hopen, pinnable_iff.mpr hcode, if_neg (by decide), halone] at hserve
    obtain ⟨t, hanswered, hbehind⟩ := answer hserve rfl
    have hstore : t.store = (s.changeCopy n i (Copy.pinTo pinned)).store := (of_behind State.store hbehind :)
    refine ⟨t, hpin ▸ hanswered, hpin ▸ copyBecomes_of_findMsg hbecomes fun k => ?_, ?_⟩
    · rw [State.findMsg, hstore, State.findMsg]
    · rw [hbehind, hstore]
  · intro selector i answered refused selected
    have answer {u : State} {r : Result} {fields : List Byte} (h : serveRequeue number selector s = u.answer r fields)
        (hunits : u.units = s.units) : ∃ t, answered t r fields ∧ t.behind = u.behind := by
      obtain ⟨t, hexec, hbehind, hanswers⟩ :=
        answered_of_serve (i := .requeue p tag number selector) rfl hfree rfl (hrole _) rfl h hunits
      exact ⟨t, ⟨hexec, hanswers⟩, hbehind⟩
    refine ⟨fun hbad => answer ?_ rfl, fun h1 h2 hi => ⟨fun hnone => answer ?_ rfl, fun m hm hcopies => ?_⟩⟩
    · unfold serveRequeue
      split
      next hn hsel =>
        rcases hbad with h | h | ⟨h, h'⟩
        · rw [numberOf_eq_none (.inl h)] at hn; cases hn
        · rw [numberOf_eq_none (.inr h)] at hn; cases hn
        · rw [selectorOf_eq_none h h'] at hsel; cases hsel
      next => rfl
    · obtain ⟨sel, hsel⟩ := selectorOf_isSome hi
      simp [serveRequeue, numberOf_eq_some h1 h2, hsel, show s.findMsg number.toNat = none from hnone]
    obtain ⟨sel, hsel⟩ := selectorOf_isSome hi
    have hserve := serveRequeue_eq (numberOf_eq_some h1 h2) hsel hm
    have hmem (j : Nat) (c : Copy) : selected j c = requeues selector.toNat j c := rfl
    refine ⟨fun h7 hnone => answer ?_ rfl, fun hin => ?_⟩
    · rw [hserve, if_pos]
      rw [selected_isEmpty hsel, if_pos h7]
      exact decide_eq_true (List.getElem?_eq_none_iff.mp hnone)
    have hpicked : (m.selected sel).isEmpty = false := by
      rw [selected_isEmpty hsel]
      split
      next h7 => exact decide_eq_false (Nat.not_le.mpr (hin.resolve_left fun h => by
        have h : selector.toNat = 255 := h
        omega))
      next => exact List.isEmpty_eq_false_iff.mpr hcopies
    have hat : s.findMsg m.number = some m := by rw [findMsg_number hm]; exact hm
    rw [hpicked, if_neg Bool.false_ne_true] at hserve
    refine ⟨fun hopen => answer ?_ rfl, fun hopen hnone => answer ?_ rfl, ?_⟩
    · rw [hserve, if_pos (isOpen_iff.mpr hopen)]
    · rw [hserve, if_neg (mt isOpen_iff.mp hopen), if_pos]
      refine List.isEmpty_iff.mpr (List.eq_nil_iff_forall_not_mem.mpr fun r hr => ?_)
      obtain ⟨-, c, hc, hok⟩ := mem_requeueRefs.mp hr
      exact Bool.false_ne_true ((hnone _ c hc).symm.trans hok)
    intro hopen hsome after
    have hrefs : ¬ (m.requeueRefs selector.toNat).isEmpty = true := by
      obtain ⟨j, c, hc, hok⟩ := hsome
      rw [List.isEmpty_iff]
      exact List.ne_nil_of_mem (mem_requeueRefs.mpr ⟨rfl, c, hc, hok⟩)
    have htouched : m.touched (m.requeueRefs selector.toNat) = true := by
      obtain ⟨j, c, hc, hok⟩ := hsome
      exact touched_eq_true_iff.mpr ⟨j, mem_requeueRefs.mpr ⟨rfl, c, hc, hok⟩, (List.getElem?_eq_some_iff.mp hc).1⟩
    have hcopiesAfter : m.copiesAfter (m.requeueRefs selector.toNat) (fun _ _ => s.requeued m.prec) = m.copies.mapIdx after := by
      refine List.ext_getElem? fun j => ?_
      rw [getElem?_copiesAfter, List.getElem?_mapIdx]
      cases hc : m.copies[j]? with
      | none => rfl
      | some c =>
        have hiff : (m.number, j) ∈ m.requeueRefs selector.toNat ↔ selected j c = true := by
          rw [mem_requeueRefs]
          exact ⟨fun ⟨_, d, hd, hok⟩ => by rw [hc] at hd; cases hd; exact hok, fun hok => ⟨rfl, c, hc, hok⟩⟩
        rw [Option.map_some, Option.map_some, if_congr hiff rfl rfl]
        refine congrArg some ?_
        by_cases hok : selected j c = true
        · rw [if_pos hok, requeued_of_failed (failed_of_requeues hok)]
          exact (if_pos hok).symm
        · rw [if_neg hok]
          exact (if_neg hok).symm
    rw [if_neg (mt isOpen_iff.mp hopen), if_neg hrefs, requeue_eq hat] at hserve
    obtain ⟨t, hanswered, hbehind⟩ := answer hserve rfl
    have hstore : t.store = (s.requeue m selector.toNat).store := (of_behind State.store hbehind :)
    have hbook : t.book = (s.requeue m selector.toNat).book := (of_behind State.book hbehind :)
    have hfind (k : Nat) : t.findMsg k = (s.requeue m selector.toNat).findMsg k := by rw [State.findMsg, hstore, State.findMsg]
    refine ⟨t, hanswered, fun k hk => ?_, ?_, fun e => ?_, ?_⟩
    · rw [hfind, State.requeue, findMsg_changeEach (requeued_settles s m.prec) fun m' _ _ => requeued_closesOnce s m.prec m']
      cases hk' : s.findMsg k with
      | none => rfl
      | some m' =>
        rw [Option.map_some, Message.after, if_neg]
        rw [touched_eq_true_iff]
        rintro ⟨j, hj, -⟩
        exact hk ((findMsg_number hk').symm.trans ((mem_requeueRefs.mp hj).1.trans (findMsg_number hm)))
    · rw [hfind, State.requeue, findMsg_changeEach (requeued_settles s m.prec) fun m' _ _ => requeued_closesOnce s m.prec m', hm,
        Option.map_some, Message.after, if_pos htouched, hcopiesAfter]
    · rw [State.station, hbook, ← State.station]
      exact station_requeue hat e
    · rw [hbehind, hstore, hbook]

end Sys2Proof.Machine
end

section
/-! PROOF. CANCEL of one copy and of all the copies of a message (R75 to R77). -/
namespace Sys2Proof.Machine

/-! ### A copy cancelled -/

theorem cancel_of_idle {c : Copy} (h : c.idle = true) : c.cancel = { c with state := some .cancelled } := by
  rcases idle_iff.mp h with h | ⟨p, ends, h⟩ <;> simp [Copy.cancel, h, Copy.become]

theorem cancel_of_taken {c : Copy} {j : Port} (h : c.state = some (.taken j)) : c.cancel = { c with state := some (.withdrawing j) } := by
  simp [Copy.cancel, h, Copy.become]

theorem isTaken_iff {c : Copy} : c.isTaken = true ↔ ∃ j, c.state = some (.taken j) := by
  unfold Copy.isTaken
  split <;> simp_all

theorem cancellable_eq (c : Copy) : c.cancellable = (c.idle || c.isTaken) := by
  unfold Copy.cancellable Copy.idle Copy.isTaken
  cases c.state with
  | none => rfl
  | some x => cases x <;> rfl

theorem cancel_of_neither {c : Copy} (h : c.cancellable = false) : c.cancel = c := by
  unfold Copy.cancellable at h
  unfold Copy.cancel
  split at h <;> simp_all

theorem cancel_holder (c : Copy) : c.cancel.holder = c.holder := by
  cases hcase : c.cancellable
  · rw [cancel_of_neither hcase]
  · rw [cancellable_eq, Bool.or_eq_true, isTaken_iff] at hcase
    rcases hcase with h | ⟨j, h⟩
    · rw [holder_of_idle h, cancel_of_idle h]; rfl
    · rw [cancel_of_taken h, Copy.holder, Copy.holder, h]; rfl

theorem cancel_not_cancellable (c : Copy) : c.cancel.cancellable = false := by
  cases hcase : c.cancellable
  · rw [cancel_of_neither hcase, hcase]
  · rw [cancellable_eq, Bool.or_eq_true, isTaken_iff] at hcase
    rcases hcase with h | ⟨j, h⟩
    · rw [cancel_of_idle h]; rfl
    · rw [cancel_of_taken h]; rfl

theorem cancel_settles : Settles fun _ _ => Copy.cancel := fun _ _ c => cancel_of_neither (cancel_not_cancellable c)

/-- A holder's entry is marked, once the copy is cancelled. -/
theorem cancel_state_of_holder {c : Copy} {j : Port} (h : c.holder = some j) : c.cancel.state = some (.withdrawing j) := by
  rcases holder_eq_some_iff.mp h with h | h
  · rw [cancel_of_taken h]
  · simp [Copy.cancel, h]

theorem cancel_failed_iff (c : Copy) : c.cancel.state = some .failed ↔ c.state = some .failed := by
  cases hcase : c.cancellable
  · rw [cancel_of_neither hcase]
  · rw [cancellable_eq, Bool.or_eq_true, isTaken_iff] at hcase
    rcases hcase with h | ⟨j, h⟩
    · rw [cancel_of_idle h]
      rcases idle_iff.mp h with h | ⟨p, ends, h⟩ <;> simp [h]
    · rw [cancel_of_taken h]; simp [h]

theorem cancel_live (c : Copy) : c.cancel.live = (c.live && !c.idle) := by
  cases hcase : c.cancellable
  · rw [cancel_of_neither hcase]
    rw [cancellable_eq, Bool.or_eq_false_iff] at hcase
    rw [hcase.1, Bool.not_false, Bool.and_true]
  · rw [cancellable_eq, Bool.or_eq_true, isTaken_iff] at hcase
    rcases hcase with h | ⟨j, h⟩
    · rw [cancel_of_idle h, h, Bool.not_true, Bool.and_false]; rfl
    · have hidle : c.idle = false := by rw [Copy.idle, h]
      rw [cancel_of_taken h, hidle, Copy.live, Copy.live, h]; rfl

/-! ### One copy -/

section
variable {s : State} {n i : Nat} {c : Copy}

theorem cancelCopy_idle (h : s.copyAt n i = some c) (hidle : c.idle = true) : s.cancelCopy n i = { s with
    store := (s.cancelCopy n i).store
    book := s.book.modify c.station (Option.map fun st => { st with waiting := st.waiting - 1 }) } := by
  have hcancel : s.cancelCopy n i = s.changeCopy n i Copy.cancel := by
    rw [State.cancelCopy, h]
    rcases idle_iff.mp hidle with h | ⟨p, ends, h⟩ <;> simp only [h]
  have hd : c.cancel.holder = none := by rw [cancel_holder, holder_of_idle hidle]
  have hstatus : s.statusIfFails c c.cancel = s.status := if_neg fun h => h.2 ((cancel_failed_iff c).mp h.1)
  have hlive : c.cancel.live = false := by rw [cancel_of_idle hidle]; rfl
  rw [hcancel]
  refine (changeCopy_eq h hd).trans ?_
  rw [hstatus, State.listsLeft, holder_of_idle hidle, live_of_idle hidle, hlive]
  rfl

/-- The list of one port with the entry of a copy marked. -/
def State.listsMarked (s : State) (p : Port) (n i : Nat) : PerPort (List Entry) :=
  s.lists.set p ((s.lists.get p).map fun e => if e.number = n ∧ e.index = i then { e with withdrawing := true } else e)

theorem changeCopy_cancel_lists {j : Port} (h : s.copyAt n i = some c) (hj : c.holder = some j) :
    (s.changeCopy n i Copy.cancel).lists = s.listsMarked j n i := by
  have hmark : (fun e : Entry => if e.names n i then { e with withdrawing := true } else e)
      = fun e => if e.number = n ∧ e.index = i then { e with withdrawing := true } else e :=
    funext fun e => if_congr (by rw [Entry.names, Bool.and_eq_true, beq_iff_eq, beq_iff_eq]) rfl rfl
  rw [changeCopy_lists h, State.followHolder, hj]
  dsimp only
  rw [cancel_holder, hj, if_pos (beq_self_eq_true _), cancel_state_of_holder hj, if_pos (beq_self_eq_true _), State.updEntry, hmark,
    State.listsMarked]

theorem cancelCopy_taken {j : Port} (h : s.copyAt n i = some c) (hj : c.state = some (.taken j)) (hoff : s.roles.get j ≠ .off) :
    s.cancelCopy n i = { s with
      store := (s.cancelCopy n i).store, lists := s.listsMarked j n i, status := s.statusWith .withdrawn j } := by
  have hcancel : s.cancelCopy n i = (s.changeCopy n i Copy.cancel).raiseAt .withdrawn j := by
    rw [State.cancelCopy, h]
    simp only [hj]
  have hholder : c.holder = some j := holder_eq_some_iff.mpr (.inl hj)
  have hlists := changeCopy_cancel_lists h hholder
  have hbook : (s.changeCopy n i Copy.cancel).book = s.book := by
    have hlive : c.cancel.live = c.live := by rw [cancel_of_taken hj, Copy.live, Copy.live, hj]; rfl
    rw [changeCopy_book h, hlive]
    exact modify_map_id fun st => by cases c.live <;> rfl
  have hstatus : (s.changeCopy n i Copy.cancel).status = s.status := by
    rw [changeCopy_status h, if_neg]
    exact fun h => h.2 ((cancel_failed_iff c).mp h.1)
  have hframe : s.changeCopy n i Copy.cancel = { s with
      store := (s.changeCopy n i Copy.cancel).store, lists := s.listsMarked j n i } := by
    conv_lhs => rw [State.changeCopy_frame, hlists, hbook, hstatus]
  have hstore : (s.cancelCopy n i).store = (s.changeCopy n i Copy.cancel).store := by rw [hcancel]; rfl
  rw [hstore, hcancel]
  generalize (s.changeCopy n i Copy.cancel).store = store at hframe
  rw [hframe, raiseAt_eq (routed_withdrawn (by exact hoff))]
  rfl

theorem cancelCopy_becomes (h : s.copyAt n i = some c) : (s.cancelCopy n i).copyBecomes s n i c.cancel := by
  refine copyBecomes_of_findMsg (changeCopy_becomes h Copy.cancel) fun k => ?_
  rw [State.cancelCopy, h]
  dsimp only
  split <;> rfl

end

/-! ### Several copies -/

/-- Each of some copies cancelled, in turn. -/
def State.cancelEach (s : State) (refs : List (Nat × Nat)) : State := refs.foldl (fun t r => t.cancelCopy r.1 r.2) s

section
variable {s : State} {refs : List (Nat × Nat)}

theorem changeCopy_status_free (s : State) (x : PerPort EventSet) (n i : Nat) (f : Copy → Copy) :
    ({ s with status := x } : State).changeCopy n i f
      = { s.changeCopy n i f with status := (({ s with status := x } : State).changeCopy n i f).status } := by
  cases h : s.copyAt n i with
  | none =>
    have h' : ({ s with status := x } : State).copyAt n i = none := h
    rw [State.changeCopy_none h, State.changeCopy_none h']
  | some c =>
    have h' : ({ s with status := x } : State).copyAt n i = some c := h
    have hstore : (({ s with status := x } : State).changeCopy n i f).store = (s.changeCopy n i f).store := by
      rw [changeCopy_store h, changeCopy_store h']; rfl
    have hbook : (({ s with status := x } : State).changeCopy n i f).book = (s.changeCopy n i f).book := by
      rw [changeCopy_book h, changeCopy_book h']
    have hlists : (({ s with status := x } : State).changeCopy n i f).lists = (s.changeCopy n i f).lists := by
      rw [changeCopy_lists h, changeCopy_lists h', State.followHolder, State.followHolder]
      cases c.holder with
      | none => rfl
      | some j => dsimp only; split <;> [(split <;> rfl); rfl]
    conv_lhs => rw [State.changeCopy_frame, hstore, hbook, hlists]
    conv_rhs => rw [State.changeCopy_frame]

theorem cancelCopy_frame (s : State) (n i : Nat) :
    s.cancelCopy n i = { s.changeCopy n i Copy.cancel with status := (s.cancelCopy n i).status } := by
  unfold State.cancelCopy
  cases h : s.copyAt n i with
  | none => rw [State.changeCopy_none h]
  | some c => dsimp only; split <;> rfl

theorem status_cancelCopy {n i : Nat} {c : Copy} (h : s.copyAt n i = some c) {q : Port} (hoff : s.roles.get q ≠ .off) :
    (s.cancelCopy n i).status.get q = s.status.get q ||| if (c.state == some (.taken q)) = true then eventBit .withdrawn else 0 := by
  have hstatus : (s.changeCopy n i Copy.cancel).status = s.status := by
    rw [changeCopy_status h, if_neg]
    exact fun h => h.2 ((cancel_failed_iff c).mp h.1)
  have hroles : (s.changeCopy n i Copy.cancel).roles = s.roles := by rw [State.changeCopy_frame]
  unfold State.cancelCopy
  rw [h]
  dsimp only
  split
  next j hj =>
    rw [State.raiseAt, raiseWhere_status_get, hstatus, hroles, hj, routed_withdrawn hoff]
    refine congrArg (_ ||| ·) (if_congr ?_ rfl rfl)
    rw [beq_iff_eq, beq_iff_eq, Option.some_inj, CopyState.taken.injEq]
    exact eq_comm
  next hnot =>
    rw [hstatus, if_neg fun hq => hnot q (beq_iff_eq.mp hq)]
    exact BitVec.or_zero.symm

theorem cancelEach_concat (s : State) (refs : List (Nat × Nat)) (r : Nat × Nat) :
    s.cancelEach (refs ++ [r]) = (s.cancelEach refs).cancelCopy r.1 r.2 := List.foldl_concat ..

/-- But for the status sets, the cancels are changes of copies. -/
theorem cancelEach_frame (s : State) (refs : List (Nat × Nat)) :
    s.cancelEach refs = { s.changeEach refs (fun _ _ => Copy.cancel) with status := (s.cancelEach refs).status } := by
  induction refs using List.reverseRecOn with
  | nil => rfl
  | append_singleton refs r ih =>
    have hchange : (s.cancelEach refs).changeCopy r.1 r.2 Copy.cancel
        = { s.changeEach (refs ++ [r]) (fun _ _ => Copy.cancel) with
            status := ((s.cancelEach refs).changeCopy r.1 r.2 Copy.cancel).status } := by
      conv_lhs => rw [ih, changeCopy_status_free, ← ih]
      rw [changeEach_concat]
    rw [cancelEach_concat]
    refine (cancelCopy_frame ..).trans ?_
    generalize ((s.cancelEach refs).cancelCopy r.1 r.2).status = x
    rw [hchange]

/-- A copy met on the way keeps its holder. -/
theorem copyAt_cancelled {k j : Nat} {c : Copy} (hc : s.copyAt k j = some c) :
    ∃ d, (s.changeEach refs fun _ _ => Copy.cancel).copyAt k j = some d ∧ d.holder = c.holder := by
  refine ⟨_, (copyAt_changeEach cancel_settles k j).trans (by rw [hc]; rfl), ?_⟩
  dsimp only
  split
  · exact cancel_holder c
  · rfl

theorem copyAt_of_cancelled {k j : Nat} {d : Copy} (hd : (s.changeEach refs fun _ _ => Copy.cancel).copyAt k j = some d) :
    ∃ c, s.copyAt k j = some c ∧ d.holder = c.holder := by
  obtain ⟨c, hc, hcases⟩ := copyAt_changeEach_cases cancel_settles hd
  rcases hcases with rfl | ⟨-, rfl⟩
  · exact ⟨d, hc, rfl⟩
  · exact ⟨c, hc, cancel_holder c⟩

/-- The lists after the cancels: the entries of the cancelled copies are marked. -/
theorem lists_cancelEach (j : Port) : (s.changeEach refs fun _ _ => Copy.cancel).lists.get j = (s.lists.get j).map fun e =>
    if (e.number, e.index) ∈ refs ∧ (s.copyAt e.number e.index).any (fun c => c.holder == some j) = true
      then { e with withdrawing := true } else e := by
  induction refs using List.reverseRecOn with
  | nil => simp [State.changeEach]
  | append_singleton refs r ih =>
    have hmem (e : Entry) : (e.number, e.index) ∈ refs ++ [r] ↔ (e.number, e.index) ∈ refs ∨ e.number = r.1 ∧ e.index = r.2 := by
      rw [List.mem_append, List.mem_singleton, Prod.ext_iff]
    rw [changeEach_concat]
    by_cases hheld : (s.copyAt r.1 r.2).any (fun c => c.holder == some j) = true
    · obtain ⟨c, hc, hholder⟩ := (Option.any_eq_true ..).mp hheld
      obtain ⟨d, hd, hdholder⟩ := copyAt_cancelled (refs := refs) hc
      have hdj : d.holder = some j := hdholder.trans (beq_iff_eq.mp hholder)
      rw [changeCopy_cancel_lists hd hdj, State.listsMarked, PerPort.get_set_self, ih, List.map_map]
      refine List.map_congr_left fun e _ => ?_
      rw [Function.comp_apply]
      by_cases hr : e.number = r.1 ∧ e.index = r.2
      · rw [if_pos (show (e.number, e.index) ∈ refs ++ [r] ∧ _ from ⟨(hmem e).mpr (.inr hr), by rw [hr.1, hr.2]; exact hheld⟩)]
        split <;> rfl
      · simp only [hmem, or_iff_left hr]
        split <;> rfl
    · have hsame : ((s.changeEach refs fun _ _ => Copy.cancel).changeCopy r.1 r.2 Copy.cancel).lists.get j
          = (s.changeEach refs fun _ _ => Copy.cancel).lists.get j := by
        cases hat : (s.changeEach refs fun _ _ => Copy.cancel).copyAt r.1 r.2 with
        | none => rw [State.changeCopy_none hat]
        | some d =>
          rw [changeCopy_lists hat]
          obtain ⟨c, hc, hholder⟩ := copyAt_of_cancelled hat
          rw [hc, Option.any_some, beq_iff_eq, ← hholder] at hheld
          exact followHolder_lists_of_ne hheld _
      rw [hsame, ih]
      refine List.map_congr_left fun e _ => if_congr ?_ rfl rfl
      rw [hmem]
      refine and_congr_left fun hany => (or_iff_left fun hr => hheld ?_).symm
      rw [hr.1, hr.2] at hany
      exact hany

/-- The status sets after the cancels: WITHDRAWN at each port that held one of the copies. -/
theorem status_cancelEach {q : Port} (hoff : s.roles.get q ≠ .off) : (s.cancelEach refs).status.get q = s.status.get q
    ||| if (refs.any fun r => (s.copyAt r.1 r.2).any fun c => c.state == some (.taken q)) = true then eventBit .withdrawn else 0 := by
  induction refs using List.reverseRecOn with
  | nil => simp [State.cancelEach]
  | append_singleton refs r ih =>
    have hcopy : (s.cancelEach refs).copyAt r.1 r.2 = (s.changeEach refs fun _ _ => Copy.cancel).copyAt r.1 r.2 := by
      rw [cancelEach_frame]; rfl
    have hroles : (s.cancelEach refs).roles = s.roles := by rw [cancelEach_frame, changeEach_frame]
    rw [cancelEach_concat, List.any_append, List.any_cons, List.any_nil, Bool.or_false]
    cases hat : (s.cancelEach refs).copyAt r.1 r.2 with
    | none =>
      rw [hat] at hcopy
      have hnone : s.copyAt r.1 r.2 = none := by
        rw [copyAt_changeEach cancel_settles] at hcopy
        exact Option.map_eq_none_iff.mp hcopy.symm
      rw [State.cancelCopy, hat]
      dsimp only
      rw [ih, hnone, Option.any_none, Bool.or_false]
    | some d =>
      obtain ⟨c, hc, hcases⟩ := copyAt_changeEach_cases cancel_settles (hcopy.symm.trans hat)
      have hstep := status_cancelCopy hat (q := q) (by rw [hroles]; exact hoff)
      rw [hstep, ih, hc, Option.any_some]
      rcases hcases with rfl | ⟨hmem, rfl⟩
      · rw [BitVec.or_assoc]
        refine congrArg (_ ||| ·) ?_
        cases refs.any _ <;> cases d.state == some (.taken q) <;> simp
      · have hnot : (c.cancel.state == some (.taken q)) = false := by
          rw [beq_eq_false_iff_ne]
          intro htaken
          have := cancel_not_cancellable c
          rw [cancellable_eq, isTaken_iff.mpr ⟨q, htaken⟩, Bool.or_true] at this
          cases this
        have hany : (c.state == some (.taken q)) = true →
            (refs.any fun r => (s.copyAt r.1 r.2).any fun c => c.state == some (.taken q)) = true :=
          fun htaken => List.any_eq_true.mpr ⟨r, hmem, by rw [hc, Option.any_some]; exact htaken⟩
        rw [hnot, if_neg Bool.false_ne_true, BitVec.or_assoc]
        refine congrArg (_ ||| ·) ?_
        cases htaken : c.state == some (.taken q)
        · rw [Bool.or_false]; exact BitVec.or_zero
        · rw [hany htaken]; rfl

end

/-! ### The request -/

/-- The places of all the copies of a message. -/
def Message.allRefs (m : Message) : List (Nat × Nat) := m.copies.zipIdx.map fun x => (m.number, x.2)

section
variable {s : State} {m : Message}

theorem mem_allRefs {k j : Nat} : (k, j) ∈ m.allRefs ↔ k = m.number ∧ j < m.copies.length := by
  simp only [Message.allRefs, List.mem_map, Prod.mk.injEq]
  constructor
  · rintro ⟨x, hx, hk, rfl⟩
    exact ⟨hk.symm, (List.getElem?_eq_some_iff.mp (List.mem_zipIdx_iff_getElem?.mp hx)).1⟩
  · rintro ⟨hk, hj⟩
    exact ⟨(m.copies[j], j), List.mem_zipIdx_iff_getElem?.mpr (List.getElem?_eq_getElem hj), hk.symm, rfl⟩

theorem nodup_allRefs (m : Message) : m.allRefs.Nodup := by
  refine List.Nodup.of_map Prod.snd ?_
  have hsnd : m.allRefs.map Prod.snd = m.copies.zipIdx.map Prod.snd := by rw [Message.allRefs, List.map_map]; rfl
  rw [hsnd, List.zipIdx_map_snd]
  exact List.nodup_range'

theorem indices_eq (m : Message) : m.indices = m.copies.zipIdx.map Prod.snd := by
  rw [Message.indices, List.zipIdx_map_snd, List.range_eq_range']

theorem cancelAll_eq (hm : s.findMsg m.number = some m) : m.indices.foldl (fun t i => t.cancelCopy m.number i) s = s.cancelEach m.allRefs := by
  rw [indices_eq, State.cancelEach, Message.allRefs, List.foldl_map, List.foldl_map]

theorem copyAt_any (hm : s.findMsg m.number = some m) (test : Copy → Bool) :
    (m.allRefs.any fun r => (s.copyAt r.1 r.2).any test) = m.copies.any test := by
  rw [Bool.eq_iff_iff, List.any_eq_true, List.any_eq_true]
  constructor
  · rintro ⟨r, hr, hany⟩
    obtain ⟨c, hc, htest⟩ := (Option.any_eq_true ..).mp hany
    rw [(mem_allRefs.mp hr).1, copyAt_of_findMsg hm] at hc
    exact ⟨c, List.mem_of_getElem? hc, htest⟩
  · rintro ⟨c, hc, htest⟩
    obtain ⟨j, hj⟩ := List.getElem?_of_mem hc
    refine ⟨(m.number, j), mem_allRefs.mpr ⟨rfl, (List.getElem?_eq_some_iff.mp hj).1⟩, ?_⟩
    rw [copyAt_of_findMsg hm, hj, Option.any_some, htest]

theorem station_cancelAll (hm : s.findMsg m.number = some m) (e : Nat) :
    (s.cancelEach m.allRefs).station e = (s.station e).map fun st => { st with
      waiting := st.waiting - m.copies.countP fun c => c.idle && c.station == e } := by
  have hlive (c : Copy) (h : c.cancel.live = true) : c.live = true := by
    rw [cancel_live, Bool.and_eq_true] at h
    exact h.1
  have hframe : (s.cancelEach m.allRefs).station e = (s.changeEach m.allRefs fun _ _ => Copy.cancel).station e := by
    rw [cancelEach_frame]; rfl
  refine hframe.trans ((station_changeEach_lowered cancel_settles (nodup_allRefs m) (fun _ _ c _ h => hlive c h) e).trans ?_)
  refine congrArg (Option.map · (s.station e)) (funext fun st => congrArg (fun k => { st with waiting := st.waiting - k }) ?_)
  have hcount : (m.copies.countP fun c => c.idle && c.station == e) = m.copies.zipIdx.countP fun x => x.1.idle && x.1.station == e := by
    conv_lhs => rw [← List.zipIdx_map_fst 0 m.copies, List.countP_map]
    rfl
  rw [State.countChanges, Message.allRefs, List.countP_map, hcount]
  refine List.countP_congr fun x hx => ?_
  have hat : s.copyAt m.number x.2 = some x.1 := (copyAt_of_findMsg hm).trans (List.mem_zipIdx_iff_getElem?.mp hx)
  have hlive : x.1.idle = true → x.1.live = true := live_of_idle
  simp only [Function.comp_apply, hat, Option.any_some, cancel_live]
  revert hlive
  cases x.1.idle <;> cases x.1.live <;> simp

end

section
variable {s : State} {m : Message}

theorem cancelAll_frame (hm : s.findMsg m.number = some m) : s.cancelEach m.allRefs = { s with
    store := (s.cancelEach m.allRefs).store, book := (s.cancelEach m.allRefs).book
    lists := (s.cancelEach m.allRefs).lists, status := (s.cancelEach m.allRefs).status } := by
  have hframe := cancelEach_frame s m.allRefs
  generalize s.cancelEach m.allRefs = u at *
  rw [hframe]
  conv_lhs => rw [changeEach_frame]

theorem findMsg_cancelEach (k : Nat) :
    (s.cancelEach m.allRefs).findMsg k = (s.changeEach m.allRefs fun _ _ => Copy.cancel).findMsg k := by
  rw [cancelEach_frame]; rfl

theorem findMsg_cancelAll_other {k : Nat} (hk : k ≠ m.number) : (s.cancelEach m.allRefs).findMsg k = s.findMsg k := by
  have huntouched (m' : Message) (hm' : s.findMsg k = some m') : m'.touched m.allRefs = false := by
    rw [Bool.eq_false_iff, Ne, touched_eq_true_iff]
    rintro ⟨j, hj, -⟩
    exact hk ((findMsg_number hm').symm.trans (mem_allRefs.mp hj).1)
  rw [findMsg_cancelEach, findMsg_changeEach cancel_settles]
  · cases hm' : s.findMsg k with
    | none => rfl
    | some m' => rw [Option.map_some, Message.after, huntouched m' hm', if_neg Bool.false_ne_true]
  · exact fun m' hm' ht => absurd (huntouched m' hm' ▸ ht) Bool.false_ne_true

theorem findMsg_cancelAll (hm : s.findMsg m.number = some m) (hphase : ∃ f, m.phase = .filed f) (hsome : m.copies ≠ []) :
    (s.cancelEach m.allRefs).findMsg m.number = some (Message.rephase s.clock { m with copies := m.copies.map Copy.cancel }) := by
  have htouched : m.touched m.allRefs = true :=
    touched_eq_true_iff.mpr ⟨0, mem_allRefs.mpr ⟨rfl, List.length_pos_iff.mpr hsome⟩, List.length_pos_iff.mpr hsome⟩
  have hcopies : m.copiesAfter m.allRefs (fun _ _ => Copy.cancel) = m.copies.map Copy.cancel := by
    refine List.ext_getElem? fun j => ?_
    rw [getElem?_copiesAfter, List.getElem?_map]
    cases hc : m.copies[j]? with
    | none => rfl
    | some c => rw [Option.map_some, Option.map_some, if_pos (mem_allRefs.mpr ⟨rfl, (List.getElem?_eq_some_iff.mp hc).1⟩)]
  rw [findMsg_cancelEach, findMsg_changeEach cancel_settles, hm, Option.map_some, Message.after, if_pos htouched, hcopies]
  intro m' hm' _ f t hclosed
  obtain ⟨f', hf'⟩ := hphase
  rw [hm] at hm'
  cases hm'
  rw [hf'] at hclosed
  cases hclosed

/-- The lists after the cancel of all copies, where the entries of withdrawing copies have their marks. -/
theorem lists_cancelAll (hm : s.findMsg m.number = some m)
    (hmark : ∀ j e c, e ∈ s.lists.get j → e.number = m.number → m.copies[e.index]? = some c → c.state = some (.withdrawing j) →
      e.withdrawing = true) (j : Port) : (s.cancelEach m.allRefs).lists.get j = (s.lists.get j).map fun e =>
        if e.number = m.number ∧ m.copies[e.index]?.map Copy.state = some (some (.taken j)) then { e with withdrawing := true } else e := by
  have hframe : (s.cancelEach m.allRefs).lists = (s.changeEach m.allRefs fun _ _ => Copy.cancel).lists := by rw [cancelEach_frame]
  rw [hframe, lists_cancelEach]
  refine List.map_congr_left fun e he => ?_
  by_cases hn : e.number = m.number
  · have hat : s.copyAt e.number e.index = m.copies[e.index]? := by rw [hn, copyAt_of_findMsg hm]
    rw [hat]
    cases hc : m.copies[e.index]? with
    | none => rw [if_neg fun h => Bool.false_ne_true h.2, if_neg fun h => nomatch h.2]
    | some c =>
      have hin : (e.number, e.index) ∈ m.allRefs := mem_allRefs.mpr ⟨hn, (List.getElem?_eq_some_iff.mp hc).1⟩
      rw [Option.any_some, Option.map_some]
      by_cases hstate : c.state = some (.withdrawing j)
      · have hsame : ({ e with withdrawing := true } : Entry) = e := by
          rw [← hmark j e c he hn hc hstate]
        rw [hsame, ite_self, ite_self]
      · refine if_congr ?_ rfl rfl
        rw [beq_iff_eq, holder_eq_some_iff, or_iff_left hstate]
        exact ⟨fun h => ⟨hn, congrArg some h.2⟩, fun h => ⟨hin, Option.some.inj h.2⟩⟩
  · rw [if_neg fun h => hn (mem_allRefs.mp h.1).1, if_neg fun h => hn h.1]

end

theorem serveCancel_eq {number : Half} {b : Byte} {sel : Selector} {s : State} {m : Message} (hn : numberOf number = some number.toNat)
    (hsel : selectorOf b = some sel) (hm : s.findMsg number.toNat = some m) : serveCancel number b s = match sel with
      | .one i => m.copies[i]?.elim (s.answer .noSuch) fun c =>
          if m.isOpen then s.answer .state else if !c.cancellable then s.answer .already
          else (s.cancelCopy number.toNat i).answer .ok (be8 c.cancel.code)
      | .all => if m.isOpen then s.answer .state else if !m.copies.any Copy.cancellable then s.answer .already
          else (s.cancelEach m.allRefs).answer .ok
            (be8 (m.copies.countP Copy.idle) ++ be8 (m.copies.countP Copy.isTaken) ++ be8 (m.copies.countP fun c => !c.cancellable)) := by
  have hnumber := findMsg_number hm
  cases sel with
  | one i =>
    simp only [serveCancel, hn, hsel, hm]
    cases m.copies[i]? <;> rfl
  | all =>
    have hall := cancelAll_eq (s := s) (m := m) (by rw [hnumber]; exact hm)
    rw [hnumber] at hall
    simp only [serveCancel, hn, hsel, hm, hall]

/-- Settles O50. -/
theorem cancelActsOnCopies : Obligations.CancelActsOnCopies := by
  intro p tag selector number s hfree hconsole n i answered refused idle taken after
  have hrole : mayUse (s.roles.get p) 0x38 = true := by rw [hconsole]; rfl
  have answer {u : State} {r : Result} {fields : List Byte} (h : serveCancel number selector s = u.answer r fields)
      (hunits : u.units = s.units) : ∃ t, answered t r fields ∧ t.behind = u.behind := by
    obtain ⟨t, hexec, hbehind, hanswers⟩ :=
      answered_of_serve (i := .cancel p tag number selector) rfl hfree rfl hrole rfl h hunits
    exact ⟨t, ⟨hexec, hanswers⟩, hbehind⟩
  have hidle : idle = Copy.idle := rfl
  have htaken : taken = Copy.isTaken := rfl
  have hafter : after = Copy.cancel := rfl
  rw [hidle, htaken, hafter]
  refine ⟨fun hbad => answer ?_ rfl, fun h1 h2 hi => ⟨fun hnone => answer ?_ rfl, fun m hm => ?_⟩⟩
  · unfold serveCancel
    split
    next hn hsel =>
      rcases hbad with h | h | ⟨h, h'⟩
      · rw [numberOf_eq_none (.inl h)] at hn; cases hn
      · rw [numberOf_eq_none (.inr h)] at hn; cases hn
      · rw [selectorOf_eq_none h h'] at hsel; cases hsel
    next => rfl
  · obtain ⟨sel, hsel⟩ := selectorOf_isSome hi
    simp [serveCancel, numberOf_eq_some h1 h2, hsel, show s.findMsg number.toNat = none from hnone]
  have hserve {sel : Selector} (hsel : selectorOf selector = some sel) := serveCancel_eq (numberOf_eq_some h1 h2) hsel hm
  have hone (h7 : i ≤ 7) : selectorOf selector = some (.one i) := if_pos h7
  have hall (h255 : i = 255) : selectorOf selector = some .all := (if_neg (by omega)).trans (if_pos h255)
  refine ⟨fun h7 hnone => answer ?_ rfl, fun h255 hopen => answer ?_ rfl, fun h255 hopen hnone => answer ?_ rfl, ?_, fun c h7 hc =>
    ⟨fun hopen => answer ?_ rfl, fun hopen hi' ht => answer ?_ rfl, fun hopen hidle => ?_, ?_⟩⟩
  · rw [hserve (hone h7)]
    dsimp only
    rw [hnone, Option.elim_none]
  · rw [hserve (hall h255)]
    exact if_pos (isOpen_iff.mpr hopen)
  · rw [hserve (hall h255)]
    dsimp only
    rw [if_neg (mt isOpen_iff.mp hopen), if_pos]
    rw [Bool.not_eq_true', List.any_eq_false]
    intro c hc
    rw [cancellable_eq, (hnone c hc).1, (hnone c hc).2]
    exact Bool.false_ne_true
  · intro h255 hphase hsome hmark
    have hnumber := findMsg_number hm
    have hat : s.findMsg m.number = some m := by rw [hnumber]; exact hm
    have hany : m.copies.any Copy.cancellable = true := by
      obtain ⟨c, hc, hcase⟩ := hsome
      exact List.any_eq_true.mpr ⟨c, hc, by rw [cancellable_eq, Bool.or_eq_true]; exact hcase⟩
    have hopen : m.phase ≠ .opened := by obtain ⟨f, hf⟩ := hphase; rw [hf]; simp
    have hcount : (m.copies.countP fun c => !c.cancellable) = m.copies.countP fun c => !c.idle && !c.isTaken :=
      List.countP_congr fun c _ => by rw [cancellable_eq, Bool.not_or]
    have hcancel := hserve (hall h255)
    dsimp only at hcancel
    rw [if_neg (mt isOpen_iff.mp hopen), hany, if_neg (by decide), hcount, cancelAll_frame hat] at hcancel
    obtain ⟨t, hanswered, hbehind⟩ := answer hcancel rfl
    have hstore : t.store = (s.cancelEach m.allRefs).store := (of_behind State.store hbehind :)
    have hbook : t.book = (s.cancelEach m.allRefs).book := (of_behind State.book hbehind :)
    have hlists : t.lists = (s.cancelEach m.allRefs).lists := (of_behind State.lists hbehind :)
    have hstatus : t.status = (s.cancelEach m.allRefs).status := (of_behind State.status hbehind :)
    have hfind (k : Nat) : t.findMsg k = (s.cancelEach m.allRefs).findMsg k := by rw [State.findMsg, hstore, State.findMsg]
    refine ⟨t, hanswered, fun k hk => ?_, ?_, fun e => ?_, fun j => ?_, fun j hj => ?_, ?_⟩
    · rw [hfind, findMsg_cancelAll_other (by rw [hnumber]; exact hk)]
    · rw [hfind, ← hnumber]
      refine findMsg_cancelAll hat hphase ?_
      obtain ⟨c, hc, -⟩ := hsome
      exact List.ne_nil_of_mem hc
    · rw [State.station, hbook, ← State.station]
      exact station_cancelAll hat e
    · rw [hlists, ← hnumber]
      exact lists_cancelAll hat (fun j e c he hn => hmark j e c he (hn.trans hnumber)) j
    · rw [hstatus, status_cancelEach hj, copyAt_any hat]
      refine congrArg (_ ||| ·) (if_congr ?_ rfl rfl)
      simp only [List.any_eq_true, beq_iff_eq]
    · rw [hbehind, hstore, hbook, hlists, hstatus]
  · rw [hserve (hone h7)]
    dsimp only
    rw [hc, Option.elim_some, if_pos (isOpen_iff.mpr hopen)]
  · rw [hserve (hone h7)]
    dsimp only
    rw [hc, Option.elim_some, if_neg (mt isOpen_iff.mp hopen), cancellable_eq, hi', ht]
    rfl
  · have hat : s.copyAt n i = some c := (copyAt_of_findMsg hm).trans hc
    have hcancel := hserve (hone h7)
    dsimp only at hcancel
    rw [hc, Option.elim_some, if_neg (mt isOpen_iff.mp hopen), cancellable_eq, hidle, Bool.true_or, if_neg (by decide),
      cancelCopy_idle hat hidle] at hcancel
    have hbecomes := cancelCopy_becomes hat
    have hcode : c.cancel.code = 7 := by rw [cancel_of_idle hidle]; rfl
    rw [hcode] at hcancel
    obtain ⟨t, hanswered, hbehind⟩ := answer hcancel rfl
    have hstore : t.store = (s.cancelCopy n i).store := (of_behind State.store hbehind :)
    have hbook : t.book = s.book.modify c.station _ := (of_behind State.book hbehind :)
    refine ⟨t, hanswered, copyBecomes_of_findMsg hbecomes fun k => ?_, hbook, ?_⟩
    · rw [State.findMsg, hstore, State.findMsg]
    · rw [hbehind, hstore, hbook]
  · intro j hopen hj hoff mark
    have hat : s.copyAt n i = some c := (copyAt_of_findMsg hm).trans hc
    have hcancel := hserve (hone h7)
    dsimp only at hcancel
    rw [hc, Option.elim_some, if_neg (mt isOpen_iff.mp hopen), cancellable_eq, isTaken_iff.mpr ⟨j, hj⟩, Bool.or_true, if_neg (by decide),
      cancelCopy_taken hat hj hoff] at hcancel
    have hbecomes := cancelCopy_becomes hat
    have hcode : c.cancel.code = 3 := by rw [cancel_of_taken hj]; rfl
    rw [hcode] at hcancel
    obtain ⟨t, hanswered, hbehind⟩ := answer hcancel rfl
    have hstore : t.store = (s.cancelCopy n i).store := (of_behind State.store hbehind :)
    refine ⟨t, hanswered, copyBecomes_of_findMsg hbecomes fun k => ?_, ?_⟩
    · rw [State.findMsg, hstore, State.findMsg]
    · rw [hbehind, hstore]
      rfl

end Sys2Proof.Machine
end

section
/-! PROOF. The lapse of a channel (R5, R57, R70, R131, R137, R138). -/
namespace Sys2Proof.Machine

/-! ### Changes in states that agree -/

section
variable {s t : State} {refs : List (Nat × Nat)} {g : Nat → Nat → Copy → Copy}

theorem changeEach_congr (hstore : t.store = s.store) (hbook : t.book = s.book) (hclock : t.clock = s.clock) :
    (t.changeEach refs g).store = (s.changeEach refs g).store ∧ (t.changeEach refs g).book = (s.changeEach refs g).book := by
  induction refs using List.reverseRecOn with
  | nil => exact ⟨hstore, hbook⟩
  | append_singleton refs r ih =>
    obtain ⟨ihstore, ihbook⟩ := ih
    have hcopy : (t.changeEach refs g).copyAt r.1 r.2 = (s.changeEach refs g).copyAt r.1 r.2 := by
      rw [State.copyAt, State.findMsg, ihstore, State.copyAt, State.findMsg]
    have hclocks : (t.changeEach refs g).clock = (s.changeEach refs g).clock := by rw [changeEach_frame, changeEach_frame s]; exact hclock
    rw [changeEach_concat, changeEach_concat]
    cases hat : (s.changeEach refs g).copyAt r.1 r.2 with
    | none => rw [State.changeCopy_none hat, State.changeCopy_none (hcopy.trans hat)]; exact ⟨ihstore, ihbook⟩
    | some c =>
      rw [changeCopy_store hat, changeCopy_store (hcopy.trans hat), changeCopy_book hat, changeCopy_book (hcopy.trans hat), State.updMsg,
        State.updMsg, ihstore, hclocks, ihbook]
      exact ⟨rfl, rfl⟩

end

/-! ### The copies lost -/

theorem lost_of_not_held {limit : Nat} {c : Copy} (h : c.holder = none) : c.lost limit = c := by
  have hstate := holder_eq_none_iff.mp h
  unfold Copy.lost
  split
  next q hq => exact absurd hq (hstate q).1
  next q hq => exact absurd hq (hstate q).2
  next => rfl

theorem lost_station (limit : Nat) (c : Copy) : (c.lost limit).station = c.station := by
  unfold Copy.lost; split <;> rfl

/-- What the loss of its holder does to each copy of the store. -/
def State.lostBy (s : State) : Nat → Nat → Copy → Copy :=
  fun k _ c => c.lost (((s.findMsg k).map fun m => s.handOff.limits.get m.prec).getD 0)

/-- A reference to the copy of an entry. -/
def Entry.ref (e : Entry) : Nat × Nat := (e.number, e.index)

section
variable {s t : State}

theorem lostBy_settles (s : State) : Settles s.lostBy := fun _ _ c => lost_of_not_held (lost_holder _ c)

theorem lostBy_of_findMsg {k j : Nat} {m : Message} (h : s.findMsg k = some m) : s.lostBy k j = Copy.lost (s.handOff.limits.get m.prec) := by
  funext c
  rw [State.lostBy, h]
  rfl

theorem loseCopy_eq_changeCopy (s : State) (n i : Nat) : s.loseCopy n i = s.changeCopy n i (s.lostBy n i) := by
  cases hm : s.findMsg n with
  | none => rw [State.changeCopy_none (by rw [State.copyAt, hm]; rfl), State.loseCopy, hm]
  | some m => rw [loseCopy_eq hm, lostBy_of_findMsg hm]

theorem lostBy_congr (hhandOff : t.handOff = s.handOff) (hprec : ∀ k, (t.findMsg k).map Message.prec = (s.findMsg k).map Message.prec) :
    t.lostBy = s.lostBy := by
  funext k j c
  have h := congrArg (Option.map s.handOff.limits.get) (hprec k)
  rw [Option.map_map, Option.map_map] at h
  rw [State.lostBy, State.lostBy, hhandOff]
  exact congrArg (fun o : Option Nat => c.lost (o.getD 0)) h

theorem changeCopy_prec (s : State) (n i : Nat) (f : Copy → Copy) (k : Nat) :
    ((s.changeCopy n i f).findMsg k).map Message.prec = (s.findMsg k).map Message.prec := by
  have hprec (now : Nat) (m : Message) : (Message.rephase now m).prec = m.prec := by
    unfold Message.rephase; split <;> (try split) <;> rfl
  cases h : s.copyAt n i with
  | none => rw [State.changeCopy_none h]
  | some c =>
    rw [findMsg_changeCopy h]
    split
    next hk =>
      rw [hk, Option.map_map]
      exact congrArg (Option.map · _) (funext fun m => hprec _ _)
    next => rfl

theorem changeCopy_lostBy (s : State) (n i : Nat) (f : Copy → Copy) : (s.changeCopy n i f).lostBy = s.lostBy :=
  lostBy_congr (by rw [State.changeCopy_frame]) (changeCopy_prec s n i f)

theorem loseEach_eq (l : List Entry) (s : State) :
    l.foldl (fun u e => u.loseCopy e.number e.index) s = s.changeEach (l.map Entry.ref) s.lostBy := by
  induction l generalizing s with
  | nil => rfl
  | cons e l ih =>
    rw [List.foldl_cons, ih, loseCopy_eq_changeCopy, changeCopy_lostBy]
    rfl

end

/-! ### The expiry that lapses the channel -/

/-- The entries still in the list when the channel lapses. -/
def State.entriesLeft (s : State) (p : Port) (n i : Nat) : List Entry := (s.lists.get p).filter fun e => !e.names n i

/-- The copies that the lapse returns, after the one whose deadline passed. -/
def State.lapseRefs (s : State) (p : Port) (n i : Nat) : List (Nat × Nat) := (s.entriesLeft p n i).map Entry.ref

section
variable {s : State} {p : Port} {n i : Nat}

theorem localBack_frame (s : State) (n i : Nat) : s.localBack n i = { s with status := (s.localBack n i).status } := by
  unfold State.localBack
  split
  · unfold State.raiseAllIf
    split <;> rfl
  · rfl

/-- The return of the first entry, but for the lists and the status sets. -/
theorem expired_frame (s : State) (p : Port) (n i : Nat) : s.expired p n i = { s with
    store := (s.changeEach [(n, i)] s.lostBy).store, book := (s.changeEach [(n, i)] s.lostBy).book
    lists := (s.expired p n i).lists, status := (s.expired p n i).status
    counters := s.countersWith p fun k => { k with expiries := bump k.expiries } } := by
  have hlose : s.loseCopy n i = s.changeEach [(n, i)] s.lostBy := loseCopy_eq_changeCopy s n i
  have hlists : (s.expired p n i).lists = ((s.loseCopy n i).dropEntry p n i).lists := by
    rw [State.expired, localBack_frame]; rfl
  rw [hlists]
  generalize hx : (s.expired p n i).status = x
  rw [State.expired, localBack_frame] at hx ⊢
  rw [show _ = x from hx, hlose]
  conv_lhs => rw [changeEach_frame]
  rfl

theorem expired_list (s : State) (p : Port) (n i : Nat) : (s.expired p n i).lists.get p = s.entriesLeft p n i := by
  have hlists : (s.expired p n i).lists = ((s.loseCopy n i).dropEntry p n i).lists := by
    rw [State.expired, localBack_frame]; rfl
  rw [hlists, State.dropEntry, PerPort.get_set_self, loseCopy_eq_changeCopy]
  cases h : s.copyAt n i with
  | none => rw [State.changeCopy_none h]; rfl
  | some c =>
    rw [changeCopy_lists_left h (f := s.lostBy n i) (lost_holder ..), State.listsLeft]
    cases hj : c.holder with
    | none => rfl
    | some j =>
      by_cases hjp : p = j
      · subst hjp
        simp [State.listsWithout, State.entriesLeft, Entry.names, List.filter_filter]
      · dsimp only
        rw [State.listsWithout, PerPort.get_set_ne _ _ hjp]
        rfl

theorem changeCopy_channels_free (s : State) (x : PerPort Channel) (n i : Nat) (f : Copy → Copy) :
    ({ s with channels := x } : State).changeCopy n i f = { s.changeCopy n i f with channels := x } := by
  cases h : s.copyAt n i with
  | none =>
    have h' : ({ s with channels := x } : State).copyAt n i = none := h
    rw [State.changeCopy_none h, State.changeCopy_none h']
  | some c =>
    have h' : ({ s with channels := x } : State).copyAt n i = some c := h
    have hstore : (({ s with channels := x } : State).changeCopy n i f).store = (s.changeCopy n i f).store := by
      rw [changeCopy_store h, changeCopy_store h']; rfl
    have hbook : (({ s with channels := x } : State).changeCopy n i f).book = (s.changeCopy n i f).book := by
      rw [changeCopy_book h, changeCopy_book h']
    have hlists : (({ s with channels := x } : State).changeCopy n i f).lists = (s.changeCopy n i f).lists := by
      rw [changeCopy_lists h, changeCopy_lists h', State.followHolder, State.followHolder]
      cases c.holder with
      | none => rfl
      | some j => dsimp only; split <;> [(split <;> rfl); rfl]
    have hstatus : (({ s with channels := x } : State).changeCopy n i f).status = (s.changeCopy n i f).status := by
      rw [changeCopy_status h, changeCopy_status h']; rfl
    conv_lhs => rw [State.changeCopy_frame, hstore, hbook, hlists, hstatus]
    conv_rhs => rw [State.changeCopy_frame]

theorem changeEach_channels_free (s : State) (x : PerPort Channel) (refs : List (Nat × Nat)) (g : Nat → Nat → Copy → Copy) :
    ({ s with channels := x } : State).changeEach refs g = { s.changeEach refs g with channels := x } := by
  induction refs using List.reverseRecOn with
  | nil => rfl
  | append_singleton refs r ih => rw [changeEach_concat, ih, changeCopy_channels_free, changeEach_concat]

theorem raiseConsoles_eq {k : EventKind} (hk : k ≠ .granted) (s : State) :
    s.raiseConsoles k = { s with status := s.statusAt k s.isConsole } :=
  (s.raiseWhere_frame k s.isConsole).trans (congrArg (fun x => { s with status := x }) (s.raiseConsoles_status hk))

/-- A channel that lapses, whole. -/
theorem countLapse_lapses {b : State} {count : Nat} (hrole : b.roles.get p = .channel)
    (hcount : min 7 ((b.channels.get p).lapseCount + 1) = count) (hlimit : b.handOff.lapseLimit ≤ count) :
    b.countLapse p = { b with
      store := ((b.changeEach ((b.lists.get p).map Entry.ref) b.lostBy).releaseHolds p).store
      book := (b.changeEach ((b.lists.get p).map Entry.ref) b.lostBy).book
      lists := (b.changeEach ((b.lists.get p).map Entry.ref) b.lostBy).lists.set p []
      channels := b.channels.set p ⟨.lapsed, count⟩
      counters := b.countersWith p fun k => { k with lapses := bump k.lapses }
      status := (b.changeEach ((b.lists.get p).map Entry.ref) b.lostBy).statusAt .channelLapsed b.isConsole } := by
  have hchannels : (b.channels.set p { b.channels.get p with lapseCount := count }).set p
      { (b.channels.set p { b.channels.get p with lapseCount := count }).get p with state := .lapsed } = b.channels.set p ⟨.lapsed, count⟩ := by
    refine PerPort.ext_get fun q => ?_
    simp only [PerPort.get_set]
    split <;> simp
  have hlapse : b.countLapse p = State.lapse { b with channels := b.channels.set p { b.channels.get p with lapseCount := count } } p := by
    unfold State.countLapse
    rw [if_pos (isChannel_iff.mpr hrole)]
    dsimp only
    rw [hcount, if_pos hlimit]
    rfl
  have hfold : (b.lists.get p).foldl (fun u e => u.loseCopy e.number e.index) { b with channels := b.channels.set p ⟨.lapsed, count⟩ }
      = { b.changeEach ((b.lists.get p).map Entry.ref) b.lostBy with channels := b.channels.set p ⟨.lapsed, count⟩ } := by
    rw [loseEach_eq, changeEach_channels_free]
    rfl
  have hupd : ({ b with channels := b.channels.set p { b.channels.get p with lapseCount := count } } : State).updChannel p
      (fun c => { c with state := .lapsed }) = { b with channels := b.channels.set p ⟨.lapsed, count⟩ } := by
    rw [State.updChannel, hchannels]
  rw [hlapse, State.lapse, hupd]
  dsimp only
  rw [hfold]
  refine (raiseConsoles_eq (by decide) _).trans ?_
  obtain ⟨store, book, lists, status, hframe⟩ : ∃ store book lists status, b.changeEach ((b.lists.get p).map Entry.ref) b.lostBy
      = { b with store := store, book := book, lists := lists, status := status } := ⟨_, _, _, _, changeEach_frame ..⟩
  rw [hframe]
  rfl

end

end Sys2Proof.Machine
end

section
/-! PROOF. The expiry that lapses its channel, and what it does where the list's entries are those of copies that the channel holds (R138). -/
namespace Sys2Proof.Machine

/-- The copies that a lapse returns: the one whose deadline passed, and those of the entries still in the list. -/
def State.lapsing (s : State) (p : Port) (n i : Nat) : List (Nat × Nat) := (n, i) :: s.lapseRefs p n i

/-- The state before the lapse takes its own effects: every copy of the list has come back. -/
def State.returned (s : State) (p : Port) (n i : Nat) : State := (s.expired p n i).changeEach (s.lapseRefs p n i) s.lostBy

/-- The end of holds leaves FILED and CLOSED as they are. -/
theorem release_rephase (q : Port) (now : Nat) (m : Message) :
    Message.release q (Message.rephase now m) = Message.rephase now (Message.release q m) := by
  have hterminal : (Message.release q m).copies.all Copy.terminal = m.copies.all Copy.terminal := by
    rw [Message.release, List.all_map]
    refine congrArg (List.all m.copies) (funext fun c => ?_)
    rw [Function.comp_apply]
    split
    next h =>
      obtain ⟨ends, hstate⟩ := Sys2Proof.Pairing.heldFor_iff.mp h
      rw [Copy.terminal, Copy.terminal, hstate]
      rfl
    next => rfl
  unfold Message.rephase
  rw [hterminal]
  obtain ⟨number, phase, prec, origin, serial, wordCheck, lodgedAt, body, chain, openStamp, copies⟩ := m
  cases phase with
  | opened => rfl
  | filed f => dsimp only [Message.release]; split <;> rfl
  | closed f t => dsimp only [Message.release]; split <;> rfl

section
variable {s : State} {p : Port} {n i : Nat} {e : Entry}

theorem mem_lapsing (he : s.entryOf p n i = some e) {k j : Nat} :
    (k, j) ∈ s.lapsing p n i ↔ ∃ x ∈ s.lists.get p, x.number = k ∧ x.index = j := by
  have hmem : e ∈ s.lists.get p := List.mem_of_find?_eq_some he
  have hnames : e.names n i = true := List.find?_some he
  have hnames' {x : Entry} : x.names n i = true ↔ x.number = n ∧ x.index = i := by
    rw [Entry.names, Bool.and_eq_true, beq_iff_eq, beq_iff_eq]
  simp only [State.lapsing, List.mem_cons, State.lapseRefs, State.entriesLeft, List.mem_map, List.mem_filter, Entry.ref, Prod.mk.injEq]
  constructor
  · rintro (⟨rfl, rfl⟩ | ⟨x, ⟨hx, -⟩, hk, hj⟩)
    · exact ⟨e, hmem, hnames'.mp hnames⟩
    · exact ⟨x, hx, hk, hj⟩
  · rintro ⟨x, hx, hk, hj⟩
    by_cases hxn : x.names n i = true
    · exact .inl ⟨hk.symm.trans (hnames'.mp hxn).1, hj.symm.trans (hnames'.mp hxn).2⟩
    · exact .inr ⟨x, ⟨hx, by simpa using hxn⟩, hk, hj⟩

theorem not_mem_lapseRefs : (n, i) ∉ s.lapseRefs p n i := by
  simp only [State.lapseRefs, State.entriesLeft, List.mem_map, List.mem_filter, Entry.ref, Prod.mk.injEq, not_exists, not_and]
  rintro x ⟨-, hx⟩ hk hj
  simp [Entry.names, hk, hj] at hx

theorem expired_lostBy (s : State) (p : Port) (n i : Nat) : (s.expired p n i).lostBy = s.lostBy := by
  refine lostBy_congr (by rw [expired_frame]) fun k => ?_
  have hfind : (s.expired p n i).findMsg k = (s.changeCopy n i (s.lostBy n i)).findMsg k := by rw [expired_frame]; rfl
  rw [hfind, changeCopy_prec]

theorem returned_store (s : State) (p : Port) (n i : Nat) :
    (s.returned p n i).store = (s.changeEach (s.lapsing p n i) s.lostBy).store
      ∧ (s.returned p n i).book = (s.changeEach (s.lapsing p n i) s.lostBy).book := by
  refine changeEach_congr (s := s.changeEach [(n, i)] s.lostBy) ?_ ?_ ?_
  · rw [expired_frame]
  · rw [expired_frame]
  · rw [expired_frame, changeEach_frame]

/-- The expiry that lapses its channel, whole. -/
theorem expireEntry_lapses {count : Nat} (he : s.entryOf p n i = some e) (hdue : e.deadline ≤ s.clock) (hrole : s.roles.get p = .channel)
    (hcount : min 7 ((s.channels.get p).lapseCount + 1) = count) (hlimit : s.handOff.lapseLimit ≤ count) :
    s.expireEntry p n i = { s with
      store := ((s.changeEach (s.lapsing p n i) s.lostBy).releaseHolds p).store
      book := (s.changeEach (s.lapsing p n i) s.lostBy).book
      lists := (s.returned p n i).lists.set p []
      channels := s.channels.set p ⟨.lapsed, count⟩
      counters := s.countersWith p fun k => { k with expiries := bump k.expiries, lapses := bump k.lapses }
      status := (s.returned p n i).statusAt .channelLapsed s.isConsole } := by
  have hframe := expired_frame s p n i
  have hroles : (s.expired p n i).roles = s.roles := by rw [hframe]
  have hchannels : (s.expired p n i).channels = s.channels := by rw [hframe]
  have hhandOff : (s.expired p n i).handOff = s.handOff := by rw [hframe]
  have hcounters : (s.expired p n i).countersWith p (fun k => { k with lapses := bump k.lapses })
      = s.countersWith p fun k => { k with expiries := bump k.expiries, lapses := bump k.lapses } := by
    rw [hframe]
    refine PerPort.ext_get fun q => ?_
    simp only [State.countersWith, PerPort.get_set]
    split <;> simp
  obtain ⟨hstore, hbook⟩ := returned_store s p n i
  rw [expireEntry_due he hdue, countLapse_lapses (count := count) (by rw [hroles, hrole]) (by rw [hchannels, hcount])
    (by rw [hhandOff]; exact hlimit), expired_list, expired_lostBy, hcounters, hchannels]
  rw [← State.lapseRefs, ← State.returned, hbook]
  have hreleased : ((s.returned p n i).releaseHolds p).store = ((s.changeEach (s.lapsing p n i) s.lostBy).releaseHolds p).store := by
    rw [State.releaseHolds, hstore]; rfl
  rw [hreleased]
  have hconsole : (s.expired p n i).isConsole = s.isConsole := by rw [hframe]; rfl
  rw [hconsole]
  generalize (s.returned p n i).statusAt .channelLapsed s.isConsole = status
  generalize ((s.changeEach (s.lapsing p n i) s.lostBy).releaseHolds p).store = store
  rw [hframe]

theorem release_of_lost {k j : Nat} {c : Copy} (h : c.holder = some p) (q : Port) :
    (if (s.lostBy k j c).heldFor q then (s.lostBy k j c).become .waiting else s.lostBy k j c) = s.lostBy k j c := by
  refine if_neg ?_
  rw [State.lostBy, lost_eq h, Copy.heldFor]
  dsimp only
  split
  next x ends heq =>
    exfalso
    split at heq
    · cases heq
    · split at heq <;> cases heq
  next => exact Bool.false_ne_true

/-! ### Where the list's entries are those of copies that the channel holds -/

/-- The entries of a list are those of copies of FILED messages to stations, held by the channel. -/
def State.listTrue (s : State) (p : Port) : Prop :=
  ∀ x ∈ s.lists.get p, ∃ m f c, s.findMsg x.number = some m ∧ m.phase = .filed f ∧ m.copies[x.index]? = some c ∧ c.station ≠ 0
    ∧ c.holder = some p

section
variable (htrue : s.listTrue p) (he : s.entryOf p n i = some e)
include htrue he

theorem held_of_mem_lapsing {k j : Nat} (h : (k, j) ∈ s.lapsing p n i) : ∃ m f c, s.findMsg k = some m ∧ m.phase = .filed f
    ∧ m.copies[j]? = some c ∧ c.station ≠ 0 ∧ c.holder = some p := by
  obtain ⟨x, hx, rfl, rfl⟩ := (mem_lapsing he).mp h
  exact htrue x hx

/-- A copy that comes back is as it was until its turn. -/
theorem copyAt_expired {k j : Nat} (h : (k, j) ∈ s.lapseRefs p n i) : (s.expired p n i).copyAt k j = s.copyAt k j := by
  have hne : (k, j) ∉ [(n, i)] := fun hmem => not_mem_lapseRefs (List.mem_singleton.mp hmem ▸ h)
  have hcopy : (s.expired p n i).copyAt k j = (s.changeEach [(n, i)] s.lostBy).copyAt k j := by rw [expired_frame]; rfl
  rw [hcopy]
  exact copyAt_changeEach_of_not_mem (r := (k, j)) (lostBy_settles s) hne

theorem returned_lists (hoff : s.roles.get p ≠ .off) : (s.returned p n i).lists.set p [] = s.lists.set p [] := by
  refine PerPort.ext_get fun q => ?_
  rw [PerPort.get_set, PerPort.get_set]
  by_cases hq : q = p
  · rw [if_pos hq, if_pos hq]
  rw [if_neg hq, if_neg hq]
  obtain ⟨m, f, c, hm, hf, hc, hstation, hholder⟩ := held_of_mem_lapsing htrue he (k := n) (j := i) (List.mem_cons_self ..)
  have hexpired : (s.expired p n i).lists = s.listsWithout p n i := by rw [(expired_eq hm hc hholder hoff).2.1]
  have hreturned : (s.returned p n i).lists.get q = (s.expired p n i).lists.get q := by
    refine lists_changeEach (lostBy_settles s) fun r hr d hd => ⟨fun hdq => ?_, ?_⟩
    · rw [copyAt_expired htrue he hr] at hd
      obtain ⟨m', f', c', hm', hf', hc', -, hholder'⟩ := held_of_mem_lapsing htrue he (List.mem_cons_of_mem _ hr)
      rw [copyAt_of_findMsg hm', hc'] at hd
      cases hd
      exact hq (Option.some.inj (hdq.symm.trans hholder'))
    · rw [State.lostBy, lost_holder]; simp
  rw [hreturned, hexpired, State.listsWithout, PerPort.get_set_ne _ _ hq]

theorem returned_status (hoff : s.roles.get p ≠ .off) (q : Port) : (s.returned p n i).status.get q = s.status.get q
    ||| (if q = p then eventBit .withdrawn else 0)
    ||| (if (s.lapsing p n i).any (s.failsBy s.lostBy) = true ∧ s.roles.get q = .console then eventBit .copyFailed else 0) := by
  obtain ⟨m, f, c, hm, hf, hc, hstation, hholder⟩ := held_of_mem_lapsing htrue he (k := n) (j := i) (List.mem_cons_self ..)
  have hexpired := (expired_eq hm hc hholder hoff).2.2 q
  simp only [hstation, false_and, if_false] at hexpired
  have hroles : (s.expired p n i).roles = s.roles := by rw [expired_frame]
  have hfirst : (c.lost (s.handOff.limits.get m.prec)).state = some .failed ↔ s.failsBy s.lostBy (n, i) = true := by
    have hat : s.copyAt n i = some c := (copyAt_of_findMsg hm).trans hc
    have hstate : c.state ≠ some .failed := by rcases holder_eq_some_iff.mp hholder with h | h <;> rw [h] <;> simp
    rw [State.failsBy, hat, Option.any_some, lostBy_of_findMsg hm, Bool.and_eq_true, bne_iff_ne, beq_iff_eq, and_iff_right hstate]
  have hrest : (s.lapseRefs p n i).any ((s.expired p n i).failsBy s.lostBy) = (s.lapseRefs p n i).any (s.failsBy s.lostBy) := by
    rw [Bool.eq_iff_iff, List.any_eq_true, List.any_eq_true]
    refine exists_congr fun r => and_congr_right fun hr => ?_
    rw [State.failsBy, State.failsBy, copyAt_expired htrue he hr]
  have hlost : (c.lost (s.handOff.limits.get m.prec)).station = c.station := lost_station ..
  rw [State.returned, status_changeEach (lostBy_settles s), hrest, hexpired, hroles, State.lapsing, List.any_cons]
  rw [if_congr (and_congr_left fun _ => hfirst) rfl rfl]
  cases s.failsBy s.lostBy (n, i) <;> cases (s.lapseRefs p n i).any (s.failsBy s.lostBy)
    <;> by_cases hq : s.roles.get q = .console <;> simp [hq, BitVec.or_assoc]

/-- A held copy as the lapse leaves it. -/
def State.lapsed (s : State) (p : Port) (m : Message) (c : Copy) : Copy := { c with
  state := some (if c.state = some (.withdrawing p) then .cancelled
    else if s.handOff.limits.get m.prec ≤ c.attempts then .failed else .waiting)
  uncertain := true }

omit htrue he in
theorem lostBy_of_held {k j : Nat} {m : Message} {c : Copy} (hm : s.findMsg k = some m)
    (hstate : c.state = some (.taken p) ∨ c.state = some (.withdrawing p)) : s.lostBy k j c = s.lapsed p m c := by
  rw [lostBy_of_findMsg hm, lost_eq (holder_eq_some_iff.mpr hstate), State.lapsed]
  rcases hstate with h | h <;> simp [h]

/-- A copy after the lapse, the end of the holds included. -/
def State.afterLapse (s : State) (p : Port) (listed : Nat → Nat → Bool) (m : Message) (j : Nat) (c : Copy) : Copy :=
  if listed m.number j then s.lapsed p m c else if c.heldFor p then c.become .waiting else c

omit htrue in
theorem listed_iff {k j : Nat} : ((s.lists.get p).any fun x => x.number == k && x.index == j) = true ↔ (k, j) ∈ s.lapsing p n i := by
  rw [mem_lapsing he, List.any_eq_true]
  simp only [Bool.and_eq_true, beq_iff_eq]

theorem held_of_listed {m : Message} {j : Nat} {c : Copy} (hm : s.findMsg m.number = some m) (hc : m.copies[j]? = some c)
    (hmem : (m.number, j) ∈ s.lapsing p n i) : c.holder = some p := by
  obtain ⟨m', f, c', hm', -, hc', -, hholder⟩ := held_of_mem_lapsing htrue he hmem
  rw [hm] at hm'
  cases hm'
  rw [hc] at hc'
  cases hc'
  exact hholder

/-- A message after the lapse. -/
theorem findMsg_lapsed {k : Nat} {m : Message} (hm : s.findMsg k = some m) :
    ((s.changeEach (s.lapsing p n i) s.lostBy).releaseHolds p).findMsg k = some (
      let u := { m with copies := m.copies.mapIdx (s.afterLapse p (fun k j => (s.lists.get p).any fun x => x.number == k && x.index == j) m) }
      if (s.lists.get p).any fun x => x.number == k then Message.rephase s.clock u else u) := by
  have hnumber := findMsg_number hm
  have hself : s.findMsg m.number = some m := by rw [hnumber, hm]
  have hcopies : (m.copiesAfter (s.lapsing p n i) s.lostBy).map (fun c => if c.heldFor p then c.become .waiting else c)
      = m.copies.mapIdx (s.afterLapse p (fun k j => (s.lists.get p).any fun x => x.number == k && x.index == j) m) := by
    refine List.ext_getElem? fun j => ?_
    rw [List.getElem?_map, getElem?_copiesAfter, List.getElem?_mapIdx]
    cases hc : m.copies[j]? with
    | none => rfl
    | some c =>
      rw [Option.map_some, Option.map_some, Option.map_some, State.afterLapse, if_congr (listed_iff he) rfl rfl]
      refine congrArg some ?_
      by_cases hmem : (m.number, j) ∈ s.lapsing p n i
      · have hholder := held_of_listed htrue he hself hc hmem
        rw [if_pos hmem, if_pos hmem, release_of_lost hholder, lostBy_of_held hself (holder_eq_some_iff.mp hholder)]
      · rw [if_neg hmem, if_neg hmem]
  have htouched : m.touched (s.lapsing p n i) = (s.lists.get p).any fun x => x.number == k := by
    rw [Bool.eq_iff_iff, touched_eq_true_iff, List.any_eq_true]
    constructor
    · rintro ⟨j, hj, -⟩
      obtain ⟨x, hx, hk, -⟩ := (mem_lapsing he).mp hj
      exact ⟨x, hx, beq_iff_eq.mpr (hk.trans hnumber)⟩
    · rintro ⟨x, hx, hk⟩
      obtain ⟨m', f, c', hm', -, hc', -⟩ := htrue x hx
      rw [beq_iff_eq.mp hk, hm] at hm'
      cases hm'
      exact ⟨x.index, (mem_lapsing he).mpr ⟨x, hx, (beq_iff_eq.mp hk).trans hnumber.symm, rfl⟩, (List.getElem?_eq_some_iff.mp hc').1⟩
  rw [findMsg_releaseHolds, findMsg_changeEach (lostBy_settles s), hm, Option.map_some, Option.map_some, Message.after, htouched]
  · dsimp only
    split
    · rw [release_rephase, Message.release, hcopies]
    next hnone =>
      rw [← htouched, Bool.not_eq_true] at hnone
      rw [copiesAfter_of_not_touched hnone] at hcopies
      rw [Message.release, hcopies]
  · intro m' hm' ht f t hclosed
    rw [hm] at hm'
    cases hm'
    obtain ⟨j, hj, -⟩ := touched_eq_true_iff.mp ht
    obtain ⟨m', f', c', hm', hf', -⟩ := held_of_mem_lapsing htrue he hj
    rw [hself] at hm'
    cases hm'
    rw [hf'] at hclosed
    cases hclosed

/-- The copies of a lapse that meet a test, message by message. -/
theorem countRefs_lapsing (hdistinct : s.numbersDistinct) (test : Message → Copy → Bool) (test' : Message → Nat → Copy → Bool)
    (hsame : ∀ m ∈ s.store, ∀ j c, c.holder = some p → test' m j c = test m c) : s.countRefs (s.lapsing p n i) test'
      = (s.store.map fun m => m.copies.zipIdx.countP fun x =>
          ((s.lists.get p).any fun y => y.number == m.number && y.index == x.2) && test m x.1).sum := by
  refine congrArg List.sum (List.map_congr_left fun m hm => List.countP_congr fun x hx => ?_)
  rw [Bool.and_eq_true, Bool.and_eq_true, decide_eq_true_iff, listed_iff he]
  refine and_congr_right fun hmem => ?_
  rw [hsame m hm x.2 x.1 (held_of_listed htrue he (findMsg_of_mem hdistinct hm) (List.mem_zipIdx_iff_getElem?.mp hx) hmem)]

theorem station_lapsed (hdistinct : s.numbersDistinct) (e' : Nat) :
    (s.changeEach (s.lapsing p n i) s.lostBy).station e' = (s.station e').map fun st => { st with
      waiting := st.waiting - (s.store.map fun m => m.copies.zipIdx.countP fun x =>
        ((s.lists.get p).any fun y => y.number == m.number && y.index == x.2) && (!(s.lapsed p m x.1).live && x.1.station == e')).sum } := by
  have hlive (k j : Nat) (c : Copy) (h : (s.lostBy k j c).live = true) : c.live = true := by
    cases hholder : c.holder with
    | none => rwa [State.lostBy, lost_of_not_held hholder] at h
    | some q => exact live_of_holder hholder
  have hlowered : (s.changeEach (s.lapsing p n i) s.lostBy).countsLowered s :=
    changeEach_countsLowered hdistinct (fun _ _ c => lost_station _ c) hlive
  have hcount := liveAt_changeEach (refs := s.lapsing p n i) hdistinct (lostBy_settles s) (fun _ _ c => lost_station _ c) e'
  have hnone : s.countRefs (s.lapsing p n i) (fun m j c => !c.live && (s.lostBy m.number j c).live && c.station == e') = 0 := by
    have hfalse (k j : Nat) (c : Copy) : (!c.live && (s.lostBy k j c).live && c.station == e') = false := by
      have := hlive k j c
      cases hc : c.live <;> cases hl : (s.lostBy k j c).live <;> simp_all
    simp [State.countRefs, hfalse]
  have hgone := countRefs_lapsing htrue he hdistinct (fun m c => !(s.lapsed p m c).live && c.station == e')
    (fun m j c => c.live && !(s.lostBy m.number j c).live && c.station == e') fun m hm j c hholder => by
      rw [live_of_holder hholder, lostBy_of_held (findMsg_of_mem hdistinct hm) (holder_eq_some_iff.mp hholder), Bool.true_and]
  rw [hnone, hgone, Nat.add_zero] at hcount
  rw [(hlowered e').2]
  refine congrArg (Option.map · (s.station e')) (funext fun st => ?_)
  rw [← hcount, Nat.add_sub_cancel_left]

theorem fails_lapsing_iff (hdistinct : s.numbersDistinct) : (s.lapsing p n i).any (s.failsBy s.lostBy) = true
    ↔ 0 < (s.store.map fun m => m.copies.zipIdx.countP fun x =>
      ((s.lists.get p).any fun y => y.number == m.number && y.index == x.2) && (s.lapsed p m x.1).state == some .failed).sum := by
  have hfails {m : Message} (hm : m ∈ s.store) {j : Nat} {c : Copy} (hc : m.copies[j]? = some c) (hmem : (m.number, j) ∈ s.lapsing p n i) :
      s.failsBy s.lostBy (m.number, j) = ((s.lapsed p m c).state == some .failed) := by
    have hself := findMsg_of_mem hdistinct hm
    have hheld := holder_eq_some_iff.mp (held_of_listed htrue he hself hc hmem)
    have hat : s.copyAt m.number j = some c := (copyAt_of_findMsg hself).trans hc
    have hstate : (c.state != some .failed) = true := by rcases hheld with h | h <;> rw [h] <;> rfl
    rw [State.failsBy, hat, Option.any_some, lostBy_of_held hself hheld, hstate, Bool.true_and]
  rw [Nat.pos_iff_ne_zero, Ne, List.sum_eq_zero_iff, List.any_eq_true]
  simp only [List.mem_map, forall_exists_index, and_imp, forall_apply_eq_imp_iff₂, not_forall, ← Nat.pos_iff_ne_zero, List.countP_pos_iff,
    Bool.and_eq_true]
  constructor
  · rintro ⟨⟨k, j⟩, hmem, hr⟩
    obtain ⟨m, f, c, hm, -, hc, -, -⟩ := held_of_mem_lapsing htrue he hmem
    have hnumber := findMsg_number hm
    subst hnumber
    rw [hfails (findMsg_mem hm) hc hmem] at hr
    exact ⟨m, findMsg_mem hm, (c, j), List.mem_zipIdx_iff_getElem?.mpr hc, (listed_iff he).mpr hmem, hr⟩
  · rintro ⟨m, hm, ⟨c, j⟩, hx, hlisted, hr⟩
    have hmem := (listed_iff he).mp hlisted
    exact ⟨(m.number, j), hmem, (hfails hm (List.mem_zipIdx_iff_getElem?.mp hx) hmem).trans hr⟩

end

end

/-- Settles O49. -/
theorem lapseCutsTheChannelOff : Obligations.LapseCutsTheChannelOff := by
  intro p n i e s hs hrole he hdue hlimit
  have hexec := exec_deadlineExpiry hs p n i
  have heq := expireEntry_lapses he hdue hrole rfl hlimit
  have hoff : s.roles.get p ≠ .off := by rw [hrole]; simp
  rw [heq] at hexec
  set D := s.changeEach (s.lapsing p n i) s.lostBy with hD
  have hmem : (n, i) ∈ s.lapsing p n i := List.mem_cons_self ..
  generalize hw : ({ s with
      store := (D.releaseHolds p).store
      book := D.book
      lists := (s.returned p n i).lists.set p []
      channels := s.channels.set p ⟨.lapsed, min 7 ((s.channels.get p).lapseCount + 1)⟩
      counters := s.countersWith p fun k => { k with expiries := bump k.expiries, lapses := bump k.lapses }
      status := (s.returned p n i).statusAt .channelLapsed s.isConsole } : State) = w at hexec
  have hstore : w.store = (D.releaseHolds p).store := by rw [← hw]
  have hbook : w.book = D.book := by rw [← hw]
  have hfind (k : Nat) : w.finish.findMsg k = (D.releaseHolds p).findMsg k := by
    rw [State.findMsg, State.finish_store, hstore, State.findMsg]
  have hcopy (k j : Nat) : w.finish.copyAt k j = (D.copyAt k j).map fun c => if c.heldFor p then c.become .waiting else c := by
    rw [State.copyAt, hfind, ← State.copyAt, copyAt_releaseHolds]
  have hstatus (q : Port) : w.finish.status.get q = (s.returned p n i).status.get q
      ||| if s.roles.get q = .console then eventBit .channelLapsed else 0 := by
    rw [State.finish_status, ← hw]
    refine (PerPort.get_build ..).trans ?_
    by_cases hq : s.roles.get q = .console <;> simp [State.isConsole, hq]
  have hroles : w.units = s.units := by rw [← hw]
  refine ⟨_, hexec, State.finish_follows hroles, ?_, ?_, ?_, ?_, ?_, ?_, ?_, ?_, ?_⟩
  · rw [State.finish_channels, ← hw]
  · rw [State.finish_lists, ← hw]
    exact PerPort.get_set_self ..
  · intro k j c hc ends hheld
    rw [hcopy] at hc
    obtain ⟨d, -, rfl⟩ := Option.map_eq_some_iff.mp hc
    split at hheld
    · cases hheld
    next h => exact h (Sys2Proof.Pairing.heldFor_iff.mpr ⟨ends, hheld⟩)
  · rw [State.finish_eq, ← hw]
    rfl
  · intro q hq
    rw [hstatus, if_pos hq, BitVec.getLsbD_or]
    exact Bool.or_true _
  · rw [State.finish_eq, ← hw]
  · intro _ k j x m c hx hk hj hm hc hstate
    have hat : s.copyAt k j = some c := (copyAt_of_findMsg hm).trans hc
    rw [hcopy, hD, copyAt_changeEach (lostBy_settles s), hat, Option.map_some, Option.map_some, if_pos ((mem_lapsing he).mpr ⟨x, hx, hk, hj⟩),
      release_of_lost (holder_eq_some_iff.mpr hstate), lostBy_of_held hm hstate]
    rfl
  · intro hdistinct htrue listed lost after comesBack
    have htrue : s.listTrue p := fun x hx => by
      obtain ⟨m, f, c, hm, hf, hc, hstation, hstate⟩ := htrue x hx
      refine ⟨m, f, c, hm, hf, hc, hstation, holder_eq_some_iff.mpr ?_⟩
      rw [hstate]
      cases x.withdrawing <;> simp
    have hafter (m : Message) : after m = s.afterLapse p listed m := by
      funext j c
      refine if_congr Iff.rfl rfl ?_
      cases hstate : c.state with
      | none => simp [Copy.heldFor, hstate]
      | some x =>
        cases x with
        | heldFor q ends => simp [Copy.heldFor, hstate, Copy.become]
        | _ => simp [Copy.heldFor, hstate]
    refine ⟨?_, ?_, fun k m hm => ?_, fun e' => ?_, fun q => ?_⟩
    · rw [State.finish_lists, ← hw]
      exact returned_lists htrue he hoff
    · rw [State.finish_store, hstore, State.releaseHolds, List.map_map]
      exact changeEach_numbers ..
    · rw [hfind, hafter]
      exact findMsg_lapsed htrue he hm
    · rw [State.station, State.finish_book, hbook]
      exact station_lapsed htrue he hdistinct e'
    · rw [hstatus, returned_status htrue he hoff, if_congr ((and_congr_left fun _ => fails_lapsing_iff htrue he hdistinct).trans and_comm) rfl rfl]
      exact (BitVec.or_assoc ..).trans ((congrArg (_ ||| ·) (BitVec.or_comm ..)).trans (BitVec.or_assoc ..).symm)
  · rw [State.finish_eq, ← hw]
    rfl

end Sys2Proof.Machine
end

section
/-! PROOF. What every step keeps: the step is one act behind the lines, and the status and enable sets stay within their routed sets (R168, R170). -/
namespace Sys2Proof.Machine

/-! ### From acts to steps -/

theorem sendLines_behind (s : State) : s.sendLines.behind = s.behind := rfl

/-- What holds of the state behind the lines, whatever is in the queue, and is kept by every act, is kept by every step. -/
theorem step_keeps {P : State → Prop} (hbehind : ∀ s t : State, t.behind = s.behind → P s → P t)
    (hqueue : ∀ (s : State) (rest : List Instr), P s → P { s with pending := rest }) (hacts : ∀ s t : State, s.Acts t → P s → P t)
    {s t : State} (hs : P s) (h : step s = .next t) : P t := by
  unfold step at h
  split at h
  · cases h
    exact hbehind s _ (sendLines_behind s) hs
  next c rest _ =>
    obtain ⟨u, hexec, ⟨v, w, hv, hvw, hw⟩, -⟩ := exec_acts c { s with pending := rest }
    rw [hexec] at h
    cases h
    exact hbehind w _ hw (hacts v w hvw (hbehind _ v hv (hqueue s rest hs)))

/-- Every step keeps the outputs in agreement. -/
theorem step_outputs {s t : State} (hs : s.outputsAgree) (h : step s = .next t) : t.outputsAgree := by
  unfold step at h
  split at h
  · cases h
    exact hs
  next c rest _ =>
    obtain ⟨u, hexec, -, houtputs⟩ := exec_acts c { s with pending := rest }
    rw [hexec] at h
    cases h
    exact houtputs hs

/-! ### The status and enable sets -/

/-- The kinds of each port's status and enable set outside its routed set. -/
def State.strays (s : State) : Port → EventSet × EventSet :=
  fun p => (s.status.get p &&& ~~~routedSet (s.roles.get p), s.enable.get p &&& ~~~routedSet (s.roles.get p))

theorem eventsRouted_iff {s : State} : s.eventsRouted ↔ s.strays = fun _ => (0, 0) := by
  simp only [State.eventsRouted, State.strays, funext_iff, Prod.mk.injEq]

theorem mask_raised (x k r : EventSet) : (x ||| (k &&& r)) &&& ~~~r = x &&& ~~~r := by
  ext i hi
  simp only [BitVec.getElem_and, BitVec.getElem_or, BitVec.getElem_not]
  cases x[i] <;> cases k[i] <;> cases r[i] <;> rfl

@[simp] theorem State.raiseWhere_strays (s : State) (k : EventKind) (who : Port → Bool) : (s.raiseWhere k who).strays = s.strays := by
  funext p
  rw [State.strays, State.strays, Prod.mk.injEq]
  refine ⟨?_, rfl⟩
  simp only [State.raiseWhere, PerPort.get_build]
  split
  · exact mask_raised ..
  · rfl

@[simp] theorem State.raiseAt_strays (s : State) (k : EventKind) (p : Port) : (s.raiseAt k p).strays = s.strays := s.raiseWhere_strays ..
@[simp] theorem State.raiseConsoles_strays (s : State) (k : EventKind) : (s.raiseConsoles k).strays = s.strays := s.raiseWhere_strays ..
@[simp] theorem State.raiseConsolesIf_strays (s : State) (c : Bool) (k : EventKind) : (s.raiseConsolesIf c k).strays = s.strays := by
  cases c <;> [rfl; exact s.raiseWhere_strays ..]
@[simp] theorem State.raiseAllIf_strays (s : State) (c : Bool) (k : EventKind) : (s.raiseAllIf c k).strays = s.strays := by
  cases c <;> [rfl; exact s.raiseWhere_strays ..]
@[simp] theorem State.updCounters_strays (s : State) (p : Port) (f : Counters → Counters) : (s.updCounters p f).strays = s.strays := rfl
@[simp] theorem State.dropEntry_strays (s : State) (p : Port) (n i : Nat) : (s.dropEntry p n i).strays = s.strays := rfl
@[simp] theorem State.updChannel_strays (s : State) (p : Port) (f : Channel → Channel) : (s.updChannel p f).strays = s.strays := rfl
@[simp] theorem State.releaseHolds_strays (s : State) (k : Port) : (s.releaseHolds k).strays = s.strays := rfl
@[simp] theorem State.checkLow_strays (s : State) : s.checkLow.strays = s.strays := s.raiseConsolesIf_strays ..
@[simp] theorem State.writeEntry_strays (s : State) (e : Nat) (recycled : Bool) (st : Station) :
    (s.writeEntry e recycled st).strays = s.strays := by cases recycled <;> rfl

theorem State.followHolder_strays (s : State) (n i : Nat) (c d : Copy) : (s.followHolder n i c d).strays = s.strays := by
  unfold State.followHolder
  split
  · rfl
  · split <;> [(split <;> rfl); rfl]

@[simp] theorem State.changeCopy_strays (s : State) (n i : Nat) (f : Copy → Copy) : (s.changeCopy n i f).strays = s.strays := by
  unfold State.changeCopy
  split
  · rfl
  · dsimp only
    rw [State.raiseConsolesIf_strays, State.followHolder_strays]
    rfl
@[simp] theorem State.changeCopies_strays (s : State) (refs : List (Nat × Nat)) (f : Copy → Copy) :
    (s.changeCopies refs f).strays = s.strays := foldl_keeps (fun t r => t.changeCopy_strays r.1 r.2 f) refs s
@[simp] theorem State.handOver_strays (s : State) (p : Port) (n i : Nat) (prec : Prec) : (s.handOver p n i prec).strays = s.strays :=
  s.changeCopy_strays n i _
@[simp] theorem State.cancelCopy_strays (s : State) (n i : Nat) : (s.cancelCopy n i).strays = s.strays := by
  unfold State.cancelCopy
  split
  · dsimp only; split <;> simp
  · rfl
@[simp] theorem State.localBack_strays (s : State) (n i : Nat) : (s.localBack n i).strays = s.strays := by
  unfold State.localBack; split <;> simp
@[simp] theorem State.loseCopy_strays (s : State) (n i : Nat) : (s.loseCopy n i).strays = s.strays := by
  unfold State.loseCopy; split <;> simp
@[simp] theorem State.bookOutcome_strays (s : State) (p : Port) (e : Nat) (o : ReportOutcome) : (s.bookOutcome p e o).strays = s.strays := by
  rw [bookOutcome_eq]; rfl
@[simp] theorem State.accountGiven_strays (s : State) (p : Port) : (s.accountGiven p).strays = s.strays := by
  unfold State.accountGiven
  split
  · dsimp only; split <;> rfl
  · rfl
@[simp] theorem State.purgeMsg_strays (s : State) (m : Message) : (s.purgeMsg m).strays = s.strays := by rw [purgeMsg_eq]; rfl

theorem makeRoom_strays {s t : State} {cond : State → Bool} (h : s.makeRoom cond = some t) : t.strays = s.strays :=
  (congrArg State.strays (makeRoom_unpurged h) : t.unpurged.strays = s.unpurged.strays)

@[simp] theorem State.writeResolved_strays (s : State) (rs : List Resolved) : (s.writeResolved rs).strays = s.strays :=
  foldl_keeps (fun t r => by split <;> simp) rs s

theorem entryFor_strays {s t : State} {c : Call} {k : StationKind} {e : Nat} {made : Bool} (h : s.entryFor c k = some (t, e, made)) :
    t.strays = s.strays := by
  unfold State.entryFor at h
  split at h
  · cases h; rfl
  · split at h
    · cases h; simp
    · cases h

theorem and_masked {x y r : EventSet} (h : x &&& ~~~r = 0) : x &&& y &&& ~~~r = 0 := by
  rw [BitVec.and_assoc, BitVec.and_comm y, ← BitVec.and_assoc, h]; exact BitVec.zero_and

/-- The service of a request keeps the sets within their routed sets. -/
theorem State.Serves.eventsRouted {s t : State} {p : Port} (h : s.Serves p t) (hs : s.eventsRouted) : t.eventsRouted := by
  have same (hsame : t.strays = s.strays) : t.eventsRouted := by
    rw [eventsRouted_iff, hsame]; exact eventsRouted_iff.mp hs
  cases h with
  | clearEvents e =>
    refine fun q => ⟨?_, (hs q).2⟩
    dsimp only
    rw [PerPort.get_set]
    split
    next hq => rw [hq]; exact and_masked (hs p).1
    next => exact (hs q).1
  | setEventMask e =>
    refine fun q => ⟨(hs q).1, ?_⟩
    dsimp only
    rw [PerPort.get_set]
    split
    next hq =>
      rw [hq, BitVec.and_assoc, BitVec.and_not_self]
      exact BitVec.and_zero
    next => exact (hs q).2
  | countDuplicate => exact same (State.raiseConsoles_strays ..)
  | lodgeOpen _ _ _ _ room =>
    refine same (Eq.trans ?_ (makeRoom_strays room))
    exact (State.checkLow_strays _).trans (State.writeResolved_strays ..)
  | lodgePart _ _ room =>
    have hroom := makeRoom_strays room
    exact same ((State.checkLow_strays _).trans hroom)
  | lodgeClose =>
    refine same ?_
    rw [fileMsg_eq_raises, State.raiseConsolesIf_strays, State.raiseAllIf_strays, State.raiseAllIf_strays]
    exact foldl_keeps (f := fun (u : State) (c : Copy) => u.updStation c.station (Station.recount false true)) (g := State.strays)
      (fun _ _ => rfl) (s.filedCopies _) _
  | lodgeDrop => exact same (State.checkLow_strays _)
  | ownReport =>
    refine same ?_
    unfold State.ownReport
    dsimp only
    split <;> simp
  | lateReport =>
    refine same ?_
    unfold State.lateReport
    dsimp only
    split <;> simp
  | heard entry =>
    have hentry := entryFor_strays entry
    exact same hentry
  | setStation entry =>
    have hentry := entryFor_strays entry
    exact same hentry
  | setDispatch d => refine same ?_; dsimp only; split <;> rfl
  | setHandOff => exact same (State.changeCopies_strays ..)
  | setChannelAdmin k m =>
    refine same ?_
    unfold State.enterMode
    cases m with
    | none_ | hold | step => rfl
    | bar => dsimp only; split <;> rfl
  | cancelOne => exact same (by simp)
  | cancelAll => exact same (foldl_keeps (fun t i => t.cancelCopy_strays _ i) _ _)
  | pin => exact same (by simp)
  | requeue => exact same (foldl_keeps (fun t x => t.changeCopy_strays _ _ _) _ _)
  | takeLocal => exact same (by simp)
  | purge => exact same (by simp)
  | clearStore => 
    refine same ((State.checkLow_strays _).trans ?_)
    exact (State.raiseWhere_strays ..).trans (State.raiseWhere_strays ..)
  | _ => exact same rfl

theorem State.lapse_strays (s : State) (p : Port) : (s.lapse p).strays = s.strays :=
  (State.raiseConsoles_strays ..).trans (foldl_keeps (fun (t : State) (e : Entry) => t.loseCopy_strays e.number e.index) (s.lists.get p)
    (s.updChannel p fun c => { c with state := .lapsed }))

theorem State.expireEntry_strays (s : State) (p : Port) (n i : Nat) : (s.expireEntry p n i).strays = s.strays := by
  have hcount (t : State) : (t.countLapse p).strays = t.strays := by
    unfold State.countLapse
    split
    · dsimp only
      split
      · exact State.lapse_strays ..
      · rfl
    · rfl
  unfold State.expireEntry
  split
  · rfl
  · split
    · rw [hcount]; simp
    · rfl

theorem State.takeGrant_strays (s : State) : s.takeGrant.strays = s.strays := by
  have hrotation (t : State) (c : Choice) : (t.moveRotation c).strays = t.strays := by
    unfold State.moveRotation; split <;> rfl
  unfold State.takeGrant
  split
  next c _ =>
    have hgranted : (s.granted c).strays = s.strays := by
      unfold State.granted
      rw [State.raiseAt_strays, hrotation, State.updChannel_strays, State.handOver_strays]
    exact hgranted
  next => rfl

/-- Every act keeps the sets within their routed sets. -/
theorem State.Acts.eventsRouted {s t : State} (h : s.Acts t) (hs : s.eventsRouted) : t.eventsRouted := by
  have same (hsame : t.strays = s.strays) : t.eventsRouted := by
    rw [eventsRouted_iff, hsame]; exact eventsRouted_iff.mp hs
  have fresh (hstatus : t.status = .same 0) (henable : ∀ p, t.enable.get p &&& ~~~routedSet (t.roles.get p) = 0) : t.eventsRouted := fun p =>
    ⟨by rw [hstatus, PerPort.get_same]; exact BitVec.zero_and, henable p⟩
  have routed (x : Straps) (u : State) (p : Port) :
      (u.startValues x).enable.get p &&& ~~~routedSet ((u.startValues x).roles.get p) = 0 := by
    simp only [State.startValues, PerPort.get_build]
    exact BitVec.and_not_self _
  cases h with
  | same => exact hs
  | serves _ h => exact h.eventsRouted hs
  | linkFault => exact same (State.raiseAt_strays ..)
  | grant => exact same s.takeGrant_strays
  | openTimeout _ p =>
    refine same ?_
    unfold State.expireOpen
    split
    · split
      · exact (State.checkLow_strays _).trans (State.raiseWhere_strays ..)
      · rfl
    · rfl
  | deadline => exact same (State.expireEntry_strays ..)
  | holdEnd =>
    refine same ?_
    unfold State.endHold
    split
    · split <;> simp
    · rfl
  | decay =>
    refine same ?_
    unfold State.decayGrade
    split
    · rfl
    · split <;> rfl
  | coldStart _ x => exact fresh rfl (routed x s)
  | warmStart _ x => exact fresh rfl (routed x s)
  | reset _ x => exact fresh rfl (routed x s)
  | losePower => exact fresh rfl fun p => by dsimp only; rw [PerPort.get_same]; exact BitVec.zero_and
  | begin _ =>
    refine same ?_
    have hevents (u : State) (warm failed : Bool) : (u.endEvents warm failed).strays = u.strays := by
      unfold State.endEvents; simp
    exact hevents ..
  | _ => exact same rfl

end Sys2Proof.Machine
end

section
/-! PROOF. The law of the hand-off lists (R121), kept by every act. -/
namespace Sys2Proof.Machine

/-! ### Lists that grow no longer -/

/-- `t` has the roles and the channel states of `s`, and no list is longer. -/
def State.handsNoMore (t s : State) : Prop :=
  t.roles = s.roles ∧ ∀ p, (t.channels.get p).state = (s.channels.get p).state ∧ (t.lists.get p).length ≤ (s.lists.get p).length

theorem State.handsNoMore.of_eq {s t : State} (hroles : t.roles = s.roles) (hchannels : t.channels = s.channels)
    (hlists : t.lists = s.lists) : t.handsNoMore s := ⟨hroles, fun p => ⟨by rw [hchannels], by rw [hlists]⟩⟩

theorem State.handsNoMore.refl (s : State) : s.handsNoMore s := .of_eq rfl rfl rfl

theorem State.handsNoMore.trans {s t u : State} (h : u.handsNoMore t) (h' : t.handsNoMore s) : u.handsNoMore s :=
  ⟨h.1.trans h'.1, fun p => ⟨(h.2 p).1.trans (h'.2 p).1, (h.2 p).2.trans (h'.2 p).2⟩⟩

theorem State.handsNoMore.listsInLaw {s t : State} (h : t.handsNoMore s) (hs : s.listsInLaw) : t.listsInLaw := by
  intro p
  obtain ⟨hroles, h⟩ := h
  obtain ⟨hstate, hlength⟩ := h p
  obtain ⟨hmax, hask, hempty⟩ := hs p
  have hchannel : t.isChannel p = s.isChannel p := by rw [State.isChannel, hroles, State.isChannel]
  rw [hchannel, hstate]
  refine ⟨hlength.trans hmax, fun hc => (Nat.add_le_add_right hlength _).trans (hask hc), fun hc hstate => ?_⟩
  have hnil := hempty hc hstate
  rw [hnil] at hlength
  exact List.length_eq_zero_iff.mp (Nat.le_zero.mp hlength)

theorem foldl_handsNoMore {β : Type} {f : State → β → State} (h : ∀ s b, (f s b).handsNoMore s) (l : List β) (s : State) :
    (l.foldl f s).handsNoMore s := by
  induction l generalizing s with
  | nil => exact .refl s
  | cons b l ih => exact (ih _).trans (h s b)

theorem length_set_le {t : PerPort (List Entry)} {p : Port} {l : List Entry} (h : l.length ≤ (t.get p).length) (q : Port) :
    ((t.set p l).get q).length ≤ (t.get q).length := by
  rw [PerPort.get_set]
  split
  next hq => rw [hq]; exact h
  next => exact le_rfl

theorem dropEntry_hands (s : State) (p : Port) (n i : Nat) : (s.dropEntry p n i).handsNoMore s :=
  ⟨rfl, fun q => ⟨rfl, length_set_le (List.length_filter_le ..) q⟩⟩

theorem updEntry_hands (s : State) (p : Port) (n i : Nat) (f : Entry → Entry) : (s.updEntry p n i f).handsNoMore s :=
  ⟨rfl, fun q => ⟨rfl, length_set_le (List.length_map ..).le q⟩⟩

theorem followHolder_hands (s : State) (n i : Nat) (c d : Copy) : (s.followHolder n i c d).handsNoMore s := by
  unfold State.followHolder
  split
  · exact .refl s
  · split
    · split
      · exact updEntry_hands ..
      · exact .refl s
    · exact dropEntry_hands ..

theorem raiseWhere_hands (s : State) (k : EventKind) (who : Port → Bool) : (s.raiseWhere k who).handsNoMore s := .of_eq rfl rfl rfl

theorem raiseConsolesIf_hands (s : State) (b : Bool) (k : EventKind) : (s.raiseConsolesIf b k).handsNoMore s := by
  cases b <;> exact .of_eq rfl rfl rfl

theorem raiseAllIf_hands (s : State) (b : Bool) (k : EventKind) : (s.raiseAllIf b k).handsNoMore s := by
  cases b <;> exact .of_eq rfl rfl rfl

theorem checkLow_hands (s : State) : s.checkLow.handsNoMore s := by
  rw [checkLow_eq]; exact .of_eq rfl rfl rfl

theorem changeCopy_hands (s : State) (n i : Nat) (f : Copy → Copy) : (s.changeCopy n i f).handsNoMore s := by
  unfold State.changeCopy
  split
  · exact .refl s
  · exact (raiseConsolesIf_hands ..).trans ((followHolder_hands ..).trans (.of_eq rfl rfl rfl))

theorem changeCopies_hands (s : State) (refs : List (Nat × Nat)) (f : Copy → Copy) : (s.changeCopies refs f).handsNoMore s :=
  foldl_handsNoMore (f := fun (t : State) (r : Nat × Nat) => t.changeCopy r.1 r.2 f) (fun t r => changeCopy_hands t r.1 r.2 f) refs s

theorem cancelCopy_hands (s : State) (n i : Nat) : (s.cancelCopy n i).handsNoMore s := by
  rw [cancelCopy_frame]
  exact State.handsNoMore.trans (.of_eq rfl rfl rfl) (changeCopy_hands s n i Copy.cancel)

theorem loseCopy_hands (s : State) (n i : Nat) : (s.loseCopy n i).handsNoMore s := by
  rw [loseCopy_eq_changeCopy]; exact changeCopy_hands ..

theorem localBack_hands (s : State) (n i : Nat) : (s.localBack n i).handsNoMore s := by
  rw [localBack_frame]; exact .of_eq rfl rfl rfl

theorem accountGiven_hands (s : State) (p : Port) : (s.accountGiven p).handsNoMore s := by
  have hstate (q : Port) : ((s.channels.set p { s.channels.get p with lapseCount := 0 }).get q).state = (s.channels.get q).state := by
    rw [PerPort.get_set]
    split
    next h => rw [h]
    next => rfl
  unfold State.accountGiven
  split
  · dsimp only
    split
    · exact ⟨rfl, fun q => ⟨hstate q, le_rfl⟩⟩
    · exact ⟨rfl, fun q => ⟨hstate q, le_rfl⟩⟩
  · exact .refl s

theorem bookOutcome_hands (s : State) (p : Port) (e : Nat) (o : ReportOutcome) : (s.bookOutcome p e o).handsNoMore s := by
  rw [bookOutcome_eq]; exact .of_eq rfl rfl rfl

theorem purgeMsg_hands (s : State) (m : Message) : (s.purgeMsg m).handsNoMore s := by
  rw [purgeMsg_eq]; exact .of_eq rfl rfl rfl

theorem makeRoom_hands {s t : State} {cond : State → Bool} (h : s.makeRoom cond = some t) : t.handsNoMore s := by
  have hfields := makeRoom_unpurged h
  exact .of_eq (congrArg State.roles hfields :) (congrArg State.channels hfields :) (congrArg State.lists hfields :)

theorem writeEntry_hands (s : State) (e : Nat) (recycled : Bool) (st : Station) : (s.writeEntry e recycled st).handsNoMore s := by
  cases recycled <;> exact .of_eq rfl rfl rfl

theorem writeResolved_hands (s : State) (rs : List Resolved) : (s.writeResolved rs).handsNoMore s :=
  foldl_handsNoMore (fun t r => by split <;> [exact writeEntry_hands ..; exact .refl t]) rs s

theorem entryFor_hands {s t : State} {c : Call} {k : StationKind} {e : Nat} {made : Bool} (h : s.entryFor c k = some (t, e, made)) :
    t.handsNoMore s := by
  unfold State.entryFor at h
  split at h
  · cases h; exact .refl s
  · split at h
    · cases h; exact writeEntry_hands ..
    · cases h

theorem foldl_updStation_hands (l : List Copy) (f : Copy → Station → Station) (s : State) :
    (l.foldl (fun u c => u.updStation c.station (f c)) s).handsNoMore s :=
  foldl_handsNoMore (f := fun (u : State) (c : Copy) => u.updStation c.station (f c)) (fun _ _ => .of_eq rfl rfl rfl) l s

theorem lateReport_hands (s : State) (p : Port) (n i : Nat) (c : Copy) (o : ReportOutcome) (relay : Call) :
    (s.lateReport p n i c o relay).handsNoMore s := by
  unfold State.lateReport
  dsimp only
  refine State.handsNoMore.trans (.of_eq rfl rfl rfl) ((bookOutcome_hands ..).trans ?_)
  split
  · exact (raiseWhere_hands ..).trans (changeCopy_hands ..)
  · exact changeCopy_hands ..

theorem ownReport_hands (s : State) (p : Port) (n i : Nat) (m : Message) (c : Copy) (e : Entry) (o : ReportOutcome) (relay : Call) :
    (s.ownReport p n i m c e o relay).handsNoMore s := by
  have hcounted (t : State) : ((t.bookOutcome p c.station o).updCounters p (countOutcome o)).handsNoMore t :=
    State.handsNoMore.trans (.of_eq rfl rfl rfl) (bookOutcome_hands ..)
  unfold State.ownReport
  dsimp only
  split
  · exact (localBack_hands ..).trans ((hcounted _).trans ((dropEntry_hands ..).trans ((changeCopy_hands ..).trans (accountGiven_hands ..))))
  · exact (hcounted _).trans ((dropEntry_hands ..).trans ((changeCopy_hands ..).trans (accountGiven_hands ..)))

/-! ### The states of one channel -/

/-- The law of the lists for one port, by its list and its channel's state. -/
def listLaw (channel : Bool) (x : ChanState) (length : Nat) : Prop :=
  length ≤ Config.listMax ∧ (channel = true → length + x.count ≤ Config.listMax)
    ∧ (channel = true → x = .closed ∨ x = .lapsed → length = 0)

theorem listLaw_mono {channel : Bool} {x : ChanState} {k l : Nat} (h : listLaw channel x l) (hle : k ≤ l) : listLaw channel x k :=
  ⟨hle.trans h.1, fun hc => (Nat.add_le_add_right hle _).trans (h.2.1 hc), fun hc hx => Nat.le_zero.mp (hle.trans (h.2.2 hc hx).le)⟩

theorem listsInLaw_iff {s : State} :
    s.listsInLaw ↔ ∀ p, listLaw (s.isChannel p) (s.channels.get p).state (s.lists.get p).length := by
  simp only [State.listsInLaw, listLaw, List.length_eq_zero_iff]

/-- One channel put into another state, its list and every other channel and list as they were. -/
theorem setChannel_listsInLaw {s t : State} {k : Port} {x : Channel} (hs : s.listsInLaw) (hroles : t.roles = s.roles)
    (hchannels : t.channels = s.channels.set k x) (hlists : t.lists = s.lists)
    (h : s.isChannel k = true → listLaw true x.state (s.lists.get k).length) : t.listsInLaw := by
  rw [listsInLaw_iff] at hs ⊢
  intro q
  have hchannel : t.isChannel q = s.isChannel q := by rw [State.isChannel, hroles, State.isChannel]
  rw [hchannel, hchannels, hlists, PerPort.get_set]
  split
  next hq =>
    subst hq
    cases hc : s.isChannel q
    · exact ⟨(hs q).1, fun h => absurd h Bool.false_ne_true, fun h => absurd h Bool.false_ne_true⟩
    · exact h hc
  next => exact hs q

theorem listLaw_ready {s : State} (hs : s.listsInLaw) (k : Port) : listLaw true .ready (s.lists.get k).length :=
  ⟨(hs k).1, fun _ => (hs k).1, fun _ h => h.elim nofun nofun⟩

theorem enterMode_listsInLaw {s : State} (hs : s.listsInLaw) (k : Port) (m : AdminMode) : (s.enterMode k m).listsInLaw := by
  have hkeep {t : State} (hroles : t.roles = s.roles) (hchannels : t.channels = s.channels) (hlists : t.lists = s.lists) : t.listsInLaw :=
    (State.handsNoMore.of_eq hroles hchannels hlists).listsInLaw hs
  unfold State.enterMode
  cases m with
  | none_ | step | hold => exact hkeep rfl rfl rfl
  | bar =>
    dsimp only
    split
    · exact setChannel_listsInLaw (k := k) hs rfl rfl rfl fun _ => listLaw_ready hs k
    · exact hkeep rfl rfl rfl

theorem clearTraffic_hands (s : State) : s.clearTraffic.handsNoMore s :=
  ⟨rfl, fun q => ⟨rfl, by rw [clearTraffic_eq]; exact (congrArg List.length (PerPort.get_same [] q)).le.trans (Nat.zero_le _)⟩⟩

theorem handOver_lengths (s : State) (p : Port) (n i : Nat) (prec : Prec) : (s.handOver p n i prec).roles = s.roles
    ∧ (s.handOver p n i prec).channels = s.channels
    ∧ ∀ q, ((s.handOver p n i prec).lists.get q).length ≤ (s.lists.get q).length + if q = p then 1 else 0 := by
  have hchange := changeCopy_hands s n i fun c => c.become (.taken p)
  refine ⟨by rw [State.handOver_frame], by rw [State.handOver_frame], fun q => ?_⟩
  rw [State.handOver, State.addEntry]
  dsimp only
  rw [PerPort.get_set]
  split
  next hq =>
    subst hq
    rw [List.length_append]
    exact Nat.add_le_add_right (hchange.2 q).2 1
  next => exact (hchange.2 q).2

/-- The service of a request keeps the law of the lists. -/
theorem State.Serves.listsInLaw {s t : State} {p : Port} (h : s.Serves p t) (hs : s.listsInLaw) : t.listsInLaw := by
  have keep (hsame : t.handsNoMore s) : t.listsInLaw := hsame.listsInLaw hs
  cases h with
  | lodgeOpen _ _ _ _ room =>
    have hroom := makeRoom_hands room
    exact keep ((checkLow_hands _).trans (State.handsNoMore.trans (.of_eq rfl rfl rfl) ((writeResolved_hands ..).trans hroom)))
  | lodgePart _ _ room =>
    have hroom := makeRoom_hands room
    exact keep ((checkLow_hands _).trans (State.handsNoMore.trans (.of_eq rfl rfl rfl) hroom))
  | lodgeClose =>
    refine keep ?_
    rw [fileMsg_eq]
    exact .of_eq rfl rfl rfl
  | lodgeDrop => exact keep ((checkLow_hands _).trans (.of_eq rfl rfl rfl))
  | ownReport => exact keep (ownReport_hands ..)
  | lateReport => exact keep (lateReport_hands ..)
  | extend => exact keep (updEntry_hands ..)
  | channelOpen =>
    exact setChannel_listsInLaw (k := p) hs rfl rfl rfl fun _ => listLaw_ready hs p
  | channelClose empty =>
    exact setChannel_listsInLaw (k := p) hs rfl rfl rfl fun _ => by
      rw [empty]; exact ⟨Nat.zero_le _, fun _ => Nat.zero_le _, fun _ _ => rfl⟩
  | askStands _ room =>
    exact setChannel_listsInLaw (k := p) hs rfl rfl rfl fun _ => ⟨(hs p).1, fun _ => room, fun _ h => h.elim nofun nofun⟩
  | askEnds => exact setChannel_listsInLaw (k := p) hs rfl rfl rfl fun _ => listLaw_ready hs p
  | heard entry =>
    have hentry := entryFor_hands entry
    exact keep (State.handsNoMore.trans (.of_eq rfl rfl rfl) hentry)
  | takeLocal desk room best =>
    obtain ⟨hroles, hchannels, hlengths⟩ := handOver_lengths s p _ _ _
    refine listsInLaw_iff.mpr fun q => ?_
    have hq := listsInLaw_iff.mp hs q
    have hlength := hlengths q
    rw [State.isChannel, hroles, hchannels, ← State.isChannel]
    by_cases hqp : q = p
    · subst hqp
      have hc : s.isChannel q = false := by rw [Bool.eq_false_iff, Ne, isChannel_iff]; exact desk
      rw [if_pos rfl] at hlength
      rw [hc]
      exact ⟨hlength.trans room, fun h => absurd h Bool.false_ne_true, fun h => absurd h Bool.false_ne_true⟩
    · rw [if_neg hqp, Nat.add_zero] at hlength
      exact listLaw_mono hq hlength
  | setStation entry =>
    have hentry := entryFor_hands entry
    exact keep (State.handsNoMore.trans (.of_eq rfl rfl rfl) hentry)
  | setDispatch d => refine keep ?_; dsimp only; split <;> exact .of_eq rfl rfl rfl
  | setHandOff => exact keep ((changeCopies_hands ..).trans (.of_eq rfl rfl rfl))
  | setChannelAdmin k m => exact enterMode_listsInLaw hs k m
  | @restoreChannel k lapsed =>
    refine setChannel_listsInLaw (k := k) hs rfl rfl rfl fun hchannel => ?_
    rw [(hs k).2.2 hchannel (.inr lapsed)]
    exact ⟨Nat.zero_le _, fun _ => Nat.zero_le _, fun _ _ => rfl⟩
  | cancelOne => exact keep (cancelCopy_hands ..)
  | cancelAll => exact keep (foldl_handsNoMore (fun t i => cancelCopy_hands t _ i) _ _)
  | pin => exact keep (changeCopy_hands ..)
  | requeue => exact keep (foldl_handsNoMore (fun t x => changeCopy_hands t _ _ _) _ _)
  | purge => exact keep ((checkLow_hands _).trans (purgeMsg_hands ..))
  | clearStore => exact keep ((checkLow_hands _).trans (clearTraffic_hands s))
  | _ => exact keep (.of_eq rfl rfl rfl)

/-! ### The part's own acts -/

theorem lapse_hands (s : State) (p : Port) : (s.lapse p).roles = s.roles
    ∧ (s.lapse p).channels = s.channels.set p { s.channels.get p with state := .lapsed } ∧ (s.lapse p).lists.get p = []
    ∧ ∀ q, ((s.lapse p).lists.get q).length ≤ (s.lists.get q).length := by
  have hfold (t : State) (l : List Entry) : (l.foldl (fun u e => u.loseCopy e.number e.index) t).handsNoMore t
      ∧ (l.foldl (fun u e => u.loseCopy e.number e.index) t).channels = t.channels := by
    refine ⟨foldl_handsNoMore (fun u e => loseCopy_hands u e.number e.index) l t, ?_⟩
    rw [loseEach_eq, changeEach_frame]
  obtain ⟨⟨hroles, hhands⟩, hchannels⟩ := hfold (s.updChannel p fun c => { c with state := .lapsed }) (s.lists.get p)
  refine ⟨hroles, hchannels, PerPort.get_set_self .., fun q => ?_⟩
  have hlists : (s.lapse p).lists = _ := rfl
  rw [hlists]
  exact (length_set_le (Nat.zero_le _) q).trans (hhands q).2

theorem countLapse_listsInLaw {s : State} (hs : s.listsInLaw) (p : Port) : (s.countLapse p).listsInLaw := by
  unfold State.countLapse
  split
  · dsimp only
    have hcounted : (s.updChannel p fun c => { c with lapseCount := min 7 ((s.channels.get p).lapseCount + 1) }).handsNoMore s := by
      refine ⟨rfl, fun q => ⟨?_, le_rfl⟩⟩
      simp only [State.updChannel]
      rw [PerPort.get_set]
      split
      next hq => rw [hq]
      next => rfl
    have ht := hcounted.listsInLaw hs
    generalize (s.updChannel p fun c => { c with lapseCount := min 7 ((s.channels.get p).lapseCount + 1) }) = t at ht
    split
    · obtain ⟨hroles, hchannels, hempty, hlengths⟩ := lapse_hands t p
      refine listsInLaw_iff.mpr fun q => ?_
      rw [State.isChannel, hroles, hchannels, ← State.isChannel, PerPort.get_set]
      split
      next hq =>
        rw [hq, hempty]
        exact ⟨Nat.zero_le _, fun _ => Nat.zero_le _, fun _ _ => rfl⟩
      next => exact listLaw_mono (listsInLaw_iff.mp ht q) (hlengths q)
    · exact ht
  · exact hs

/-- The channel of a grant asks, whatever the store holds. -/
theorem openToGrants_of_choose {s : State} {c : Choice} (h : s.choose = some c) : s.openToGrants c.port = true := by
  rcases choose_eq_some h with h | h | h
  · obtain ⟨-, -, l, l', hports, -⟩ := chooseLife_eq_some h
    obtain ⟨y, hy, -⟩ := mem_lifePorts.mp (hports ▸ List.mem_append_right l (List.mem_cons_self ..))
    exact (Sys2Proof.Pairing.mem_pairsOf_iff.mp hy).1
  · obtain ⟨k, -, -, x, hx, rfl⟩ := chooseStreak_eq_some_iff.mp h
    exact (Sys2Proof.Pairing.mem_pairsOf_iff.mp (mem_streakPairs.mp (Sys2Proof.Ranking.best_least hx).1).1).1
  · rw [chooseRotation_eq] at h
    obtain ⟨k, -, hk⟩ := Option.bind_eq_some_iff.mp h
    obtain ⟨x, hx, rfl⟩ := Option.map_eq_some_iff.mp hk
    exact (Sys2Proof.Pairing.mem_pairsOf_iff.mp (Sys2Proof.Ranking.best_least hx).1).1

theorem granted_fields (s : State) (c : Choice) : (s.granted c).roles = s.roles ∧ (s.granted c).channels = s.askLowered c.port
    ∧ (s.granted c).lists = (s.handOver c.port c.cand.msg.number c.cand.index c.cand.msg.prec).lists := by
  have hrotation (t : State) : (t.moveRotation c).roles = t.roles ∧ (t.moveRotation c).channels = t.channels
      ∧ (t.moveRotation c).lists = t.lists := by
    unfold State.moveRotation; split <;> exact ⟨rfl, rfl, rfl⟩
  obtain ⟨hroles, hchannels, -⟩ := handOver_lengths s c.port c.cand.msg.number c.cand.index c.cand.msg.prec
  obtain ⟨h1, h2, h3⟩ := hrotation ((s.handOver c.port c.cand.msg.number c.cand.index c.cand.msg.prec).updChannel c.port fun x =>
    { x with state := lowerAsk x.state })
  refine ⟨h1.trans hroles, h2.trans ?_, h3⟩
  rw [State.updChannel]
  dsimp only
  rw [hchannels]
  rfl

theorem takeGrant_listsInLaw {s : State} (hs : s.listsInLaw) : s.takeGrant.listsInLaw := by
  unfold State.takeGrant
  split
  next c hchoose =>
    obtain ⟨hchannel, ⟨count, filter, hask, hcount⟩, -⟩ := Sys2Proof.Pairing.openToGrants_iff.mp (openToGrants_of_choose hchoose)
    obtain ⟨hroles, hchannels, hlists⟩ := granted_fields s c
    obtain ⟨-, -, hlengths⟩ := handOver_lengths s c.port c.cand.msg.number c.cand.index c.cand.msg.prec
    have hgranted : (s.granted c).listsInLaw := by
      refine listsInLaw_iff.mpr fun q => ?_
      have hlength := hlengths q
      have hq := listsInLaw_iff.mp hs q
      rw [State.isChannel, hroles, hchannels, hlists, ← State.isChannel, State.askLowered, PerPort.get_set]
      by_cases hqp : q = c.port
      · subst hqp
        rw [if_pos rfl, hask, lowerAsk_asking hcount]
        rw [if_pos rfl] at hlength
        have hsum := hq.2.1 (isChannel_iff.mpr hchannel)
        rw [hask, ChanState.count] at hsum
        split
        next hone =>
          have hmax : ((s.handOver c.port c.cand.msg.number c.cand.index c.cand.msg.prec).lists.get c.port).length ≤ Config.listMax := by omega
          exact ⟨hmax, fun _ => hmax, fun _ h => h.elim nofun nofun⟩
        next hmore =>
          refine ⟨by omega, fun _ => ?_, fun _ h => h.elim nofun nofun⟩
          rw [ChanState.count]
          omega
      · rw [if_neg hqp]
        rw [if_neg hqp, Nat.add_zero] at hlength
        exact listLaw_mono hq hlength
    exact hgranted
  next => exact hs

theorem fresh_listsInLaw {t : State} (hlists : t.lists = .same []) (hchannels : t.channels = .same ⟨.closed, 0⟩) : t.listsInLaw := by
  refine listsInLaw_iff.mpr fun q => ?_
  rw [hlists, hchannels, PerPort.get_same, PerPort.get_same]
  exact ⟨Nat.zero_le _, fun _ => Nat.zero_le _, fun _ _ => rfl⟩

/-- Every act keeps the law of the lists. -/
theorem State.Acts.listsInLaw {s t : State} (h : s.Acts t) (hs : s.listsInLaw) : t.listsInLaw := by
  have keep (hsame : t.handsNoMore s) : t.listsInLaw := hsame.listsInLaw hs
  cases h with
  | serves _ h => exact h.listsInLaw hs
  | linkFault => exact keep (.of_eq rfl rfl rfl)
  | grant => exact takeGrant_listsInLaw hs
  | openTimeout _ p =>
    refine keep ?_
    unfold State.expireOpen
    split
    · split
      · exact (checkLow_hands _).trans ((raiseWhere_hands ..).trans (.of_eq rfl rfl rfl))
      · exact .refl s
    · exact .refl s
  | deadline _ p n i =>
    have hexpired : (s.expired p n i).handsNoMore s :=
      (localBack_hands ..).trans (State.handsNoMore.trans (.of_eq rfl rfl rfl) ((dropEntry_hands ..).trans (loseCopy_hands ..)))
    cases he : s.entryOf p n i with
    | none => rw [expireEntry_none he]; exact hs
    | some e =>
      by_cases hdue : e.deadline ≤ s.clock
      · rw [expireEntry_due he hdue]
        exact countLapse_listsInLaw (hexpired.listsInLaw hs) p
      · rw [expireEntry_early he (Nat.not_le.mp hdue)]; exact hs
  | holdEnd =>
    refine keep ?_
    unfold State.endHold
    split
    · split <;> [exact changeCopy_hands ..; exact .refl s]
    · exact .refl s
  | decay =>
    refine keep ?_
    unfold State.decayGrade
    split
    · exact .refl s
    · split <;> exact .of_eq rfl rfl rfl
  | coldStart => exact fresh_listsInLaw rfl rfl
  | warmStart => exact fresh_listsInLaw rfl rfl
  | reset => exact fresh_listsInLaw rfl rfl
  | losePower => exact fresh_listsInLaw rfl rfl
  | @begin warm failed _ =>
    have hevents (u : State) : (u.endEvents warm failed).handsNoMore u :=
      (checkLow_hands _).trans ((raiseConsolesIf_hands ..).trans (raiseConsolesIf_hands ..))
    exact keep (State.handsNoMore.trans (.of_eq rfl rfl rfl) ((hevents _).trans (.of_eq rfl rfl rfl)))
  | _ => exact keep (.of_eq rfl rfl rfl)

theorem eventsRouted_of_behind (s t : State) (h : t.behind = s.behind) (hs : s.eventsRouted) : t.eventsRouted := by
  rw [eventsRouted_iff] at hs ⊢
  exact (of_behind State.strays h :).trans hs

theorem listsInLaw_of_behind (s t : State) (h : t.behind = s.behind) (hs : s.listsInLaw) : t.listsInLaw :=
  (State.handsNoMore.of_eq (of_behind State.roles h :) (of_behind State.channels h :) (of_behind State.lists h :)).listsInLaw hs

/-- Settles O57. -/
theorem eventUnitAndListsStayInLaw : Obligations.EventUnitAndListsStayInLaw := by
  intro s t h
  refine ⟨fun hs => step_outputs hs h, fun hs => ?_, fun hs => ?_⟩
  · exact step_keeps (P := State.eventsRouted) eventsRouted_of_behind (fun _ _ hs => hs) (fun _ _ hacts hs => hacts.eventsRouted hs) hs h
  · exact step_keeps (P := State.listsInLaw) listsInLaw_of_behind (fun _ _ hs => hs) (fun _ _ hacts hs => hacts.listsInLaw hs) hs h

end Sys2Proof.Machine
end

section
/-! PROOF. The law of the store's numbers and keys (R3, R6, R7, R13, R39), kept by every act. -/
namespace Sys2Proof.Machine

/-! ### What the laws of the numbers, keys and blocks read -/

/-- A message without its copies, and but for its phase. -/
def Message.shell (m : Message) : Message := { m.phaseless with copies := [] }

/-- What the laws of the store's numbers, keys and blocks read of a state. -/
def State.stock (s : State) : List Message × List Key × List Key × Nat × Bool × Power :=
  (s.store.map Message.shell, s.dupTable, s.ring, s.lastNumber, s.prevLow, s.power)

/-- The law of the numbers and keys, but for the store-low condition. -/
def State.numbersInLaw (s : State) : Prop :=
  s.store.length ≤ Config.slots ∧ (s.store.map Message.number).Pairwise (· < ·)
    ∧ (∀ m ∈ s.store, 1 ≤ m.number ∧ m.number ≤ Config.numberMax) ∧ s.dupTable.Perm (s.store.map Message.key)
    ∧ s.lastNumber ≤ Config.numberMax

theorem storeInLaw_iff {s : State} : s.storeInLaw ↔ s.numbersInLaw ∧ (s.inService = true → s.prevLow = s.low) := by
  simp only [State.storeInLaw, State.numbersInLaw, and_assoc]

theorem map_of_shells {α : Type} {l l' : List Message} (h : l'.map Message.shell = l.map Message.shell) (f : Message → α)
    (hf : ∀ m, f m.shell = f m) : l'.map f = l.map f := by
  have hmap (x : List Message) : x.map f = (x.map Message.shell).map f := by
    rw [List.map_map]
    exact List.map_congr_left fun m _ => (hf m).symm
  rw [hmap l', h, ← hmap l]

theorem low_of_shells {s t : State} (h : t.store.map Message.shell = s.store.map Message.shell) : t.low = s.low := by
  have hlength : t.store.length = s.store.length := by simpa using congrArg List.length h
  have hchains := map_of_shells h (fun m => m.chain.length) fun _ => rfl
  rw [State.low, State.low, State.freeSlots, State.freeSlots, State.freeBlocks, State.freeBlocks, hlength, hchains]

/-- The law of the numbers and keys as a law of their lists. -/
theorem numbersInLaw_of_shells {s t : State} (hstore : t.store.map Message.shell = s.store.map Message.shell)
    (htable : t.dupTable = s.dupTable) (hlast : t.lastNumber = s.lastNumber) (hs : s.numbersInLaw) : t.numbersInLaw := by
  obtain ⟨hslots, hsorted, hrange, hkeys, hmax⟩ := hs
  have hlength : t.store.length = s.store.length := by simpa using congrArg List.length hstore
  have hnumbers := map_of_shells hstore Message.number fun _ => rfl
  refine ⟨hlength.le.trans hslots, hnumbers ▸ hsorted, fun m hm => ?_, ?_, hlast ▸ hmax⟩
  · have hmem : m.number ∈ s.store.map Message.number := hnumbers ▸ List.mem_map_of_mem hm
    obtain ⟨x, hx, hxm⟩ := List.mem_map.mp hmem
    exact hxm ▸ hrange x hx
  · rw [htable, map_of_shells hstore Message.key fun _ => rfl]
    exact hkeys

theorem storeInLaw_of_stock {s t : State} (h : t.stock = s.stock) (hs : s.storeInLaw) : t.storeInLaw := by
  obtain ⟨hnumbers, hlow⟩ := storeInLaw_iff.mp hs
  simp only [State.stock, Prod.mk.injEq] at h
  obtain ⟨hstore, htable, -, hlast, hprev, hpower⟩ := h
  refine storeInLaw_iff.mpr ⟨numbersInLaw_of_shells hstore htable hlast hnumbers, fun hservice => ?_⟩
  rw [hprev, low_of_shells hstore]
  exact hlow (by rwa [State.inService, ← hpower])

theorem State.numbersInLaw.distinct {s : State} (h : s.numbersInLaw) : s.numbersDistinct := h.2.1.imp ne_of_lt

theorem State.numbersInLaw.checkLow {s : State} (h : s.numbersInLaw) : s.checkLow.storeInLaw := by
  rw [checkLow_eq]
  exact storeInLaw_iff.mpr ⟨h, fun _ => rfl⟩

/-! ### Operations that leave the stock -/

@[simp] theorem State.raiseWhere_stock (s : State) (k : EventKind) (who : Port → Bool) : (s.raiseWhere k who).stock = s.stock := rfl
@[simp] theorem State.raiseAt_stock (s : State) (k : EventKind) (p : Port) : (s.raiseAt k p).stock = s.stock := rfl
@[simp] theorem State.raiseConsolesIf_stock (s : State) (b : Bool) (k : EventKind) : (s.raiseConsolesIf b k).stock = s.stock := by
  cases b <;> rfl
@[simp] theorem State.raiseAllIf_stock (s : State) (b : Bool) (k : EventKind) : (s.raiseAllIf b k).stock = s.stock := by cases b <;> rfl
@[simp] theorem State.dropEntry_stock (s : State) (p : Port) (n i : Nat) : (s.dropEntry p n i).stock = s.stock := rfl
@[simp] theorem State.updChannel_stock (s : State) (p : Port) (f : Channel → Channel) : (s.updChannel p f).stock = s.stock := rfl
@[simp] theorem State.updCounters_stock (s : State) (p : Port) (f : Counters → Counters) : (s.updCounters p f).stock = s.stock := rfl
@[simp] theorem State.writeEntry_stock (s : State) (e : Nat) (recycled : Bool) (st : Station) :
    (s.writeEntry e recycled st).stock = s.stock := by cases recycled <;> rfl

theorem stock_of_store {s t : State} (hstore : t.store.map Message.shell = s.store.map Message.shell)
    (hrest : t = { s with store := t.store, book := t.book, lists := t.lists, status := t.status }) : t.stock = s.stock := by
  rw [State.stock, hstore, hrest]
  rfl

theorem map_shell_updMsg (s : State) (n : Nat) {f : Message → Message} (hf : ∀ m, (f m).shell = m.shell) :
    (s.updMsg n f).store.map Message.shell = s.store.map Message.shell := by
  rw [State.updMsg, List.map_map]
  refine List.map_congr_left fun m _ => ?_
  rw [Function.comp_apply]
  split
  · exact hf m
  · rfl

theorem withCopy_shell (now i : Nat) (d : Copy) (m : Message) : (Message.withCopy now i d m).shell = m.shell := by
  unfold Message.withCopy Message.rephase
  split <;> (try split) <;> rfl

@[simp] theorem State.changeCopy_stock (s : State) (n i : Nat) (f : Copy → Copy) : (s.changeCopy n i f).stock = s.stock := by
  refine stock_of_store ?_ (State.changeCopy_frame ..)
  cases h : s.copyAt n i with
  | none => rw [State.changeCopy_none h]
  | some c =>
    rw [changeCopy_store h]
    exact map_shell_updMsg s n fun m => withCopy_shell ..
@[simp] theorem State.changeCopies_stock (s : State) (refs : List (Nat × Nat)) (f : Copy → Copy) :
    (s.changeCopies refs f).stock = s.stock :=
  foldl_keeps (f := fun (t : State) (r : Nat × Nat) => t.changeCopy r.1 r.2 f) (fun t r => t.changeCopy_stock r.1 r.2 f) refs s
@[simp] theorem State.handOver_stock (s : State) (p : Port) (n i : Nat) (prec : Prec) : (s.handOver p n i prec).stock = s.stock :=
  s.changeCopy_stock n i _
@[simp] theorem State.cancelCopy_stock (s : State) (n i : Nat) : (s.cancelCopy n i).stock = s.stock := by
  rw [cancelCopy_frame]
  exact s.changeCopy_stock n i _
@[simp] theorem State.localBack_stock (s : State) (n i : Nat) : (s.localBack n i).stock = s.stock := by rw [localBack_frame]; rfl
@[simp] theorem State.loseCopy_stock (s : State) (n i : Nat) : (s.loseCopy n i).stock = s.stock := by
  rw [loseCopy_eq_changeCopy]; exact s.changeCopy_stock n i _
@[simp] theorem State.bookOutcome_stock (s : State) (p : Port) (e : Nat) (o : ReportOutcome) : (s.bookOutcome p e o).stock = s.stock := by
  rw [bookOutcome_eq]; rfl
@[simp] theorem State.releaseHolds_stock (s : State) (k : Port) : (s.releaseHolds k).stock = s.stock := by
  have hstore : (s.releaseHolds k).store.map Message.shell = s.store.map Message.shell := by
    rw [State.releaseHolds, List.map_map]
    rfl
  exact stock_of_store hstore rfl
@[simp] theorem State.accountGiven_stock (s : State) (p : Port) : (s.accountGiven p).stock = s.stock := by
  unfold State.accountGiven
  split
  · dsimp only
    split
    · exact State.releaseHolds_stock ..
    · rfl
  · rfl
@[simp] theorem State.enterMode_stock (s : State) (k : Port) (m : AdminMode) : (s.enterMode k m).stock = s.stock := by
  unfold State.enterMode
  cases m with
  | none_ | step => rfl
  | hold => exact State.releaseHolds_stock ..
  | bar =>
    dsimp only
    split
    · exact State.releaseHolds_stock { s with admin := s.admin.set k .bar } k
    · exact State.releaseHolds_stock { s with admin := s.admin.set k .bar } k

theorem entryFor_stock {s t : State} {c : Call} {k : StationKind} {e : Nat} {made : Bool} (h : s.entryFor c k = some (t, e, made)) :
    t.stock = s.stock := by
  unfold State.entryFor at h
  split at h
  · cases h; rfl
  · split at h
    · cases h; simp
    · cases h

theorem State.ownReport_stock (s : State) (p : Port) (n i : Nat) (m : Message) (c : Copy) (e : Entry) (o : ReportOutcome) (relay : Call) :
    (s.ownReport p n i m c e o relay).stock = s.stock := by
  unfold State.ownReport
  dsimp only
  split <;> simp

theorem State.lateReport_stock (s : State) (p : Port) (n i : Nat) (c : Copy) (o : ReportOutcome) (relay : Call) :
    (s.lateReport p n i c o relay).stock = s.stock := by
  unfold State.lateReport
  dsimp only
  split <;> simp

theorem State.lapse_stock (s : State) (p : Port) : (s.lapse p).stock = s.stock := by
  have hfold := foldl_keeps (f := fun (t : State) (e : Entry) => t.loseCopy e.number e.index) (g := State.stock)
    (fun t e => t.loseCopy_stock e.number e.index) (s.lists.get p) (s.updChannel p fun c => { c with state := .lapsed })
  exact (State.releaseHolds_stock ..).trans hfold

theorem State.countLapse_stock (s : State) (p : Port) : (s.countLapse p).stock = s.stock := by
  unfold State.countLapse
  split
  · dsimp only
    split
    · exact State.lapse_stock ..
    · rfl
  · rfl

theorem State.expireEntry_stock (s : State) (p : Port) (n i : Nat) : (s.expireEntry p n i).stock = s.stock := by
  unfold State.expireEntry
  split
  · rfl
  · split
    · rw [State.countLapse_stock]; simp
    · rfl

theorem State.granted_stock (s : State) (c : Choice) : (s.granted c).stock = s.stock := by
  have hrotation (t : State) : (t.moveRotation c).stock = t.stock := by unfold State.moveRotation; split <;> rfl
  unfold State.granted
  refine (State.raiseWhere_stock ..).trans ?_
  rw [hrotation, State.updChannel_stock, State.handOver_stock]

theorem State.takeGrant_stock (s : State) : s.takeGrant.stock = s.stock := by
  unfold State.takeGrant
  split
  · exact s.granted_stock _
  · rfl

theorem fileMsg_shells (s : State) (p : Port) (m : Message) :
    (s.fileMsg p m).store.map Message.shell = s.store.map Message.shell := by
  rw [fileMsg_eq]
  exact map_shell_updMsg s m.number fun _ => rfl

theorem State.fileMsg_stock (s : State) (p : Port) (m : Message) : (s.fileMsg p m).stock = s.stock := by
  rw [State.stock, fileMsg_shells, fileMsg_eq]
  rfl

/-! ### Messages removed -/

/-- The store without one of its messages, where the numbers are distinct. -/
theorem filter_number_eq {a b : List Message} {m : Message} (h : ((a ++ m :: b).map Message.number).Nodup) :
    ((a ++ m :: b).filter fun x => x.number != m.number) = a ++ b := by
  rw [List.map_append, List.map_cons, List.nodup_middle, List.nodup_cons, List.mem_append, not_or] at h
  have hsame {l : List Message} (hl : m.number ∉ l.map Message.number) : l.filter (fun x => x.number != m.number) = l :=
    List.filter_eq_self.mpr fun x hx => bne_iff_ne.mpr fun hxm => hl (hxm ▸ List.mem_map_of_mem hx)
  rw [List.filter_append, List.filter_cons_of_neg (by simp), hsame h.1.1, hsame h.1.2]

/-- A message of the store, and the rest of it. -/
theorem removeMsg_split {s : State} {m : Message} (hdistinct : s.numbersDistinct) (hm : m ∈ s.store) :
    ∃ a b, s.store = a ++ m :: b ∧ (s.removeMsg m.number).store = a ++ b := by
  obtain ⟨a, b, hstore⟩ := List.append_of_mem hm
  refine ⟨a, b, hstore, ?_⟩
  rw [State.removeMsg, hstore]
  exact filter_number_eq (hstore ▸ hdistinct)

/-- A message removed with its key. -/
theorem removed_numbersInLaw {s t : State} {m : Message} (hs : s.numbersInLaw) (hm : m ∈ s.store)
    (hstore : t.store = (s.removeMsg m.number).store) (htable : t.dupTable = s.dupTable.erase m.key)
    (hlast : t.lastNumber = s.lastNumber) : t.numbersInLaw := by
  obtain ⟨a, b, hsplit, hrest⟩ := removeMsg_split hs.distinct hm
  obtain ⟨hslots, hsorted, hrange, hkeys, hmax⟩ := hs
  rw [hrest] at hstore
  have hsub : (a ++ b).Sublist (a ++ m :: b) := List.Sublist.append_left (List.sublist_cons_self m b) a
  rw [← hsplit, ← hstore] at hsub
  refine ⟨hsub.length_le.trans hslots, hsorted.sublist (hsub.map _), fun x hx => hrange x (hsub.subset hx), ?_, hlast ▸ hmax⟩
  have hperm : (s.store.map Message.key).Perm (m.key :: t.store.map Message.key) := by
    rw [hsplit, hstore]
    exact List.perm_middle.map Message.key
  rw [htable]
  exact (hkeys.trans hperm).erase m.key |>.trans (by rw [List.erase_cons_head])

theorem purgeMsg_numbersInLaw {s : State} {m : Message} (hs : s.numbersInLaw) (hm : m ∈ s.store) : (s.purgeMsg m).numbersInLaw := by
  refine removed_numbersInLaw hs hm ?_ ?_ ?_ <;> rw [purgeMsg_eq] <;> rfl

theorem autoPurgeOne_distinct {s : State} (m : Message) (h : s.numbersDistinct) : (s.autoPurgeOne m).numbersDistinct := by
  obtain ⟨-, -, -, -, heq⟩ := autoPurgeOne_spec s m
  have hstore : (s.autoPurgeOne m).store = s.store.filter fun x => x.number != m.number := by rw [heq]
  rw [State.numbersDistinct, hstore]
  exact h.sublist (List.filter_sublist.map _)

/-- What one auto-purge of a CLOSED message without a FAILED copy keeps, a run of them keeps. -/
theorem foldl_autoPurgeOne_keeps {P : State → Prop} (hpurge : ∀ (s : State) (m : Message), P s → s.numbersDistinct → m ∈ s.store →
    m.isClosed = true → m.hasFailed = false → P (s.autoPurgeOne m)) (ms : List Message) (hnodup : (ms.map Message.number).Nodup) {s : State}
    (hmem : ∀ m ∈ ms, m ∈ s.store ∧ m.isClosed = true ∧ m.hasFailed = false) (hdistinct : s.numbersDistinct) (hs : P s) :
    P (ms.foldl State.autoPurgeOne s) := by
  induction ms generalizing s with
  | nil => exact hs
  | cons m ms ih =>
    obtain ⟨hnot, hnodup⟩ := List.nodup_cons.mp hnodup
    obtain ⟨hm, hclosed, hfailed⟩ := hmem m (List.mem_cons_self ..)
    refine ih hnodup (fun x hx => ?_) (autoPurgeOne_distinct m hdistinct) (hpurge s m hs hdistinct hm hclosed hfailed)
    obtain ⟨hxs, hx'⟩ := hmem x (List.mem_cons_of_mem m hx)
    obtain ⟨-, -, -, -, heq⟩ := autoPurgeOne_spec s m
    rw [heq]
    exact ⟨List.mem_filter.mpr ⟨hxs, bne_iff_ne.mpr fun hxm => hnot (hxm ▸ List.mem_map_of_mem hx)⟩, hx'⟩

theorem makeRoom_keeps {P : State → Prop} (hpurge : ∀ (s : State) (m : Message), P s → s.numbersDistinct → m ∈ s.store →
    m.isClosed = true → m.hasFailed = false → P (s.autoPurgeOne m)) {s t : State} {cond : State → Bool} (hdistinct : s.numbersDistinct)
    (hs : P s) (h : s.makeRoom cond = some t) : P t := by
  rcases (makeRoom_cases h).2 with rfl | ⟨k, rfl⟩
  · exact hs
  · have hperm := purgeCands_perm s
    have hnodup : (s.purgeCands.map Message.number).Nodup :=
      (hperm.map Message.number).nodup_iff.mpr (hdistinct.sublist (List.filter_sublist.map _))
    refine foldl_autoPurgeOne_keeps hpurge _ (hnodup.sublist ((List.take_sublist ..).map _)) (fun m hm => ?_) hdistinct hs
    obtain ⟨hms, hcand⟩ := List.mem_filter.mp (hperm.mem_iff.mp (List.mem_of_mem_take hm))
    rw [Bool.and_eq_true, Bool.not_eq_true'] at hcand
    exact ⟨hms, hcand⟩

theorem makeRoom_numbersInLaw {s t : State} {cond : State → Bool} (hs : s.numbersInLaw) (h : s.makeRoom cond = some t) : t.numbersInLaw :=
  makeRoom_keeps (P := State.numbersInLaw) (fun _ _ hs _ hm _ _ => purgeMsg_numbersInLaw hs hm) hs.distinct hs h

/-! ### A message opened -/

theorem State.numbersInLaw.storeInLaw {s : State} (h : s.numbersInLaw) : { s with prevLow := s.low }.storeInLaw :=
  storeInLaw_iff.mpr ⟨h, fun _ => rfl⟩

theorem nextNumber_prevLow (s : State) (b : Bool) : { s with prevLow := b }.nextNumber = s.nextNumber :=
  findNumber_congr (s := s) (t := { s with prevLow := b }) (fun _ => rfl) _ _

/-- The number given is in range and no message has it. -/
theorem nextNumber_new {s : State} (h : s.numbersInLaw) :
    1 ≤ s.nextNumber ∧ s.nextNumber ≤ Config.numberMax ∧ s.numberTaken s.nextNumber = false := by
  obtain ⟨h1, h2⟩ := nextNumber_range h.storeInLaw
  obtain ⟨-, -, -, hfree, -⟩ := nextNumber_spec h.storeInLaw
  rw [nextNumber_prevLow] at h1 h2 hfree
  exact ⟨h1, h2, hfree⟩

theorem slots_of_condition {s : State} {prec : Prec} (h : slotCondition prec s = true) : s.store.length < Config.slots := by
  have hfree : 0 < s.freeSlots := by
    unfold slotCondition at h
    split at h
    · exact of_decide_eq_true h
    · exact (Nat.zero_le _).trans_lt (of_decide_eq_true h)
  rw [State.freeSlots] at hfree
  omega

theorem opened_numbersInLaw {s : State} (hs : s.numbersInLaw) (p : Port) (f : OpenFields) (rs : List Resolved)
    (hslots : s.store.length < Config.slots) : (s.opened p f rs).numbersInLaw := by
  obtain ⟨hlow, hhigh, hfree⟩ := nextNumber_new hs
  have hnew (x : Message) (hx : x ∈ s.store) : x.number ≠ s.nextNumber := fun heq =>
    Bool.false_ne_true (hfree ▸ (numberTaken_iff s _).mpr (.inl ⟨x, hx, heq⟩))
  obtain ⟨-, hsorted, hrange, hkeys, -⟩ := hs
  have hperm := insertMsg_perm (openedMessage f (openKey f s.ownCall s.nextNumber) s.nextNumber p s.clock rs) s.store
  refine ⟨?_, insertMsg_sorted hsorted hnew, fun m hm => ?_, ?_, hhigh⟩
  · exact (hperm.length_eq.le).trans hslots
  · rcases List.mem_cons.mp (hperm.mem_iff.mp hm) with rfl | hm
    · exact ⟨hlow, hhigh⟩
    · exact hrange m hm
  · refine ((List.perm_append_singleton _ _).trans (hkeys.cons _)).trans ?_
    exact (hperm.map Message.key).symm

/-! ### The acts -/

theorem appendPart_numbersInLaw {s : State} (hs : s.numbersInLaw) (p : Port) (m : Message) (bytes : List Byte) (need : Nat) :
    (s.appendPart p m bytes need).numbersInLaw := by
  obtain ⟨hslots, hsorted, hrange, hkeys, hmax⟩ := hs
  have hmap {α : Type} (g : Message → α) (hg : ∀ (x : Message) (b : List Byte) (c : List Nat), g { x with body := b, chain := c } = g x) :
      (s.appendPart p m bytes need).store.map g = s.store.map g := by
    rw [State.appendPart, State.updMsg, List.map_map]
    refine List.map_congr_left fun x _ => ?_
    rw [Function.comp_apply]
    split
    · exact hg ..
    · rfl
  have hnumbers := hmap Message.number fun _ _ _ => rfl
  refine ⟨?_, hnumbers ▸ hsorted, fun x hx => ?_, (hmap Message.key fun _ _ _ => rfl) ▸ hkeys, hmax⟩
  · have hlength : (s.appendPart p m bytes need).store.length = s.store.length := by simpa using congrArg List.length hnumbers
    exact hlength.le.trans hslots
  · have hmem : x.number ∈ s.store.map Message.number := hnumbers ▸ List.mem_map_of_mem hx
    obtain ⟨y, hy, hyx⟩ := List.mem_map.mp hmem
    exact hyx ▸ hrange y hy

theorem lodgedMsg_mem {s : State} {p : Port} {m : Message} (h : s.lodgedMsg p = some m) : m ∈ s.store := by
  obtain ⟨l, -, hm⟩ := Option.bind_eq_some_iff.mp h
  exact findMsg_mem hm

theorem dropLodge_numbersInLaw {s : State} {p : Port} {m : Message} (hs : s.numbersInLaw) (h : s.lodgedMsg p = some m) :
    (s.dropLodge p m).numbersInLaw := removed_numbersInLaw hs (lodgedMsg_mem h) rfl rfl rfl

theorem empty_numbersInLaw {t : State} (hstore : t.store = []) (htable : t.dupTable = []) (hlast : t.lastNumber ≤ Config.numberMax) :
    t.numbersInLaw := by
  refine ⟨?_, ?_, ?_, ?_, hlast⟩ <;> simp [hstore, htable]

/-- The service of a request keeps the law of the store. -/
theorem State.Serves.storeInLaw {s t : State} {p : Port} (h : s.Serves p t) (hs : s.storeInLaw) : t.storeInLaw := by
  have keep (hsame : t.stock = s.stock) : t.storeInLaw := storeInLaw_of_stock hsame hs
  have hnumbers := (storeInLaw_iff.mp hs).1
  cases h with
  | lodgeOpen _ _ resolved _ room =>
    have hu := makeRoom_numbersInLaw hnumbers room
    have hnamed : s.named 0 = true := by simp [State.named]
    rw [serveOpen_eq fun r hr hmade => made_entry_pos resolved hnamed hr hmade]
    exact (opened_numbersInLaw hu p _ _ (slots_of_condition (makeRoom_cases room).1)).checkLow
  | lodgePart _ _ room => exact (appendPart_numbersInLaw (makeRoom_numbersInLaw hnumbers room) ..).checkLow
  | lodgeClose => exact keep (s.fileMsg_stock ..)
  | lodgeDrop lodged => exact (dropLodge_numbersInLaw hnumbers lodged).checkLow
  | ownReport => exact keep (s.ownReport_stock ..)
  | lateReport => exact keep (s.lateReport_stock ..)
  | channelClose => exact keep (State.releaseHolds_stock ..)
  | heard entry =>
    have hentry := entryFor_stock entry
    exact keep hentry
  | takeLocal => exact keep (s.handOver_stock ..)
  | setStation entry =>
    have hentry := entryFor_stock entry
    exact keep hentry
  | setDispatch d => refine keep ?_; dsimp only; split <;> rfl
  | setHandOff => exact keep (State.changeCopies_stock ..)
  | setChannelAdmin k m => exact keep (s.enterMode_stock k m)
  | cancelOne => exact keep (s.cancelCopy_stock ..)
  | cancelAll => exact keep (foldl_keeps (fun t i => t.cancelCopy_stock _ i) _ _)
  | pin => exact keep (s.changeCopy_stock ..)
  | requeue => exact keep (foldl_keeps (fun t x => t.changeCopy_stock _ _ _) _ _)
  | purge found => exact (purgeMsg_numbersInLaw hnumbers (findMsg_mem found)).checkLow
  | clearStore => exact (empty_numbersInLaw (t := s.clearTraffic) rfl rfl hnumbers.2.2.2.2).checkLow
  | _ => exact keep rfl

theorem storeInLaw_out_of_service {t : State} (h : t.numbersInLaw) (hservice : t.inService = false) : t.storeInLaw :=
  storeInLaw_iff.mpr ⟨h, fun hon => absurd (hservice ▸ hon) Bool.false_ne_true⟩

theorem warmStart_numbersInLaw {s : State} (hs : s.numbersInLaw) (x : Straps) : (s.warmStart x).numbersInLaw := by
  obtain ⟨hslots, hsorted, hrange, hkeys, hmax⟩ := hs
  have hstore := warmStart_store s x
  have hnumber (m : Message) : (s.restarted x m).number = m.number := rephase_number ..
  have hnumbers : (s.warmStart x).store.map Message.number = (s.store.filter fun m => !m.isOpen).map Message.number := by
    rw [hstore, List.map_map]
    exact List.map_congr_left fun m _ => hnumber m
  refine ⟨?_, ?_, fun m hm => ?_, warmStart_dupTable_perm s x hkeys, hmax⟩
  · rw [hstore, List.length_map]
    exact (List.length_filter_le ..).trans hslots
  · rw [hnumbers]
    exact hsorted.sublist (List.filter_sublist.map _)
  · rw [hstore] at hm
    obtain ⟨y, hy, rfl⟩ := List.mem_map.mp hm
    rw [hnumber]
    exact hrange y (List.mem_filter.mp hy).1

/-- Every act keeps the law of the store. -/
theorem State.Acts.storeInLaw {s t : State} (h : s.Acts t) (hs : s.storeInLaw) : t.storeInLaw := by
  have keep (hsame : t.stock = s.stock) : t.storeInLaw := storeInLaw_of_stock hsame hs
  have hnumbers := (storeInLaw_iff.mp hs).1
  cases h with
  | serves _ h => exact h.storeInLaw hs
  | grant => exact keep s.takeGrant_stock
  | openTimeout _ p =>
    unfold State.expireOpen
    split
    next m _ hm =>
      split
      · exact State.numbersInLaw.checkLow (s := (s.dropLodge p m).raiseWhere .openExpired fun q => q == p || s.isConsole q)
          (dropLodge_numbersInLaw hnumbers hm)
      · exact hs
    next => exact hs
  | deadline => exact keep (s.expireEntry_stock ..)
  | holdEnd =>
    refine keep ?_
    unfold State.endHold
    split
    · split <;> simp
    · rfl
  | decay =>
    refine keep ?_
    unfold State.decayGrade
    split
    · rfl
    · split <;> rfl
  | coldStart _ x => exact storeInLaw_out_of_service (empty_numbersInLaw rfl rfl (Nat.zero_le _)) rfl
  | warmStart _ x => exact storeInLaw_out_of_service (warmStart_numbersInLaw (s := { s with
      latch := s.latch || !s.everPowered, everPowered := true }) hnumbers x) rfl
  | reset _ x => exact storeInLaw_out_of_service (warmStart_numbersInLaw (s := { s with resetHeld := true }) hnumbers x) rfl
  | losePower => exact storeInLaw_out_of_service hnumbers rfl
  | begin _ =>
    rw [begun_eq]
    exact storeInLaw_iff.mpr ⟨hnumbers, fun _ => rfl⟩
  | _ => exact keep rfl

theorem storeInLaw_of_behind (s t : State) (h : t.behind = s.behind) (hs : s.storeInLaw) : t.storeInLaw :=
  storeInLaw_of_stock (of_behind State.stock h :) hs

/-- Settles O58. -/
theorem storeStaysInLaw : Obligations.StoreStaysInLaw := by
  intro s t hs h
  exact step_keeps (P := State.storeInLaw) storeInLaw_of_behind (fun _ _ hs => hs) (fun _ _ hacts hs => hacts.storeInLaw hs) hs h

end Sys2Proof.Machine
end

section
/-! PROOF. The law of the whole store as one predicate, what it reads of a state, and the changes that it does not see (R3 to R9, R23, R39 to R48,
R57, R63, R68, R115, R121). -/
namespace Sys2Proof.Machine

/-! ### The laws, by what they read -/

/-- The waiting count of an entry in use. -/
def State.waitingAt (s : State) (e : Nat) : Option Nat := (s.station e).map Station.waiting

/-- Every filter of a standing ask names an entry in use. -/
def State.asksKnown (s : State) : Prop :=
  ∀ p n f, s.isChannel p = true → (s.channels.get p).state = .asking n (some f) → (s.station f).isSome = true

/-- What the law of the lodge contexts reads of a message. -/
def Message.opening (m : Message) : Nat × Bool × Port := (m.number, m.isOpen, m.lodgedAt)

theorem isSome_waitingAt (s : State) (e : Nat) : (s.waitingAt e).isSome = (s.station e).isSome := Option.isSome_map ..

theorem bookInLaw_iff {s : State} : s.bookInLaw ↔ s.book.length = Config.entries ∧ (s.waitingAt 0).isSome = true
    ∧ (∀ m ∈ s.store, ∀ c ∈ m.copies, (s.waitingAt c.station).isSome = true) ∧ s.asksKnown
    ∧ ∀ e w, s.waitingAt e = some w → w = s.liveAt e := by
  simp only [State.bookInLaw, isSome_waitingAt, State.asksKnown]
  refine and_congr_right' (and_congr_right' (and_congr_right' (and_congr_right' ⟨fun h e w hw => ?_, fun h e st hst => ?_⟩)))
  · obtain ⟨st, hst, rfl⟩ := Option.map_eq_some_iff.mp hw
    exact h e st hst
  · exact h e st.waiting (by rw [State.waitingAt, hst]; rfl)

theorem mem_openings {l : List Message} {n : Nat} {p : Port} :
    (n, true, p) ∈ l.map Message.opening ↔ ∃ m ∈ l, m.number = n ∧ m.phase = .opened ∧ m.lodgedAt = p := by
  simp only [List.mem_map, Message.opening, Prod.mk.injEq, isOpen_iff]

theorem lodgesInLaw_iff {s : State} : s.lodgesInLaw ↔
    (∀ p l, s.lodges.get p = some l → (l.number, true, p) ∈ s.store.map Message.opening)
      ∧ (s.powered = true → ∀ n p, (n, true, p) ∈ s.store.map Message.opening → ∃ l, s.lodges.get p = some l ∧ l.number = n) := by
  simp only [mem_openings]
  refine and_congr_right' (imp_congr_right fun _ => ⟨?_, fun h m hm hopen => h _ _ ⟨m, hm, rfl, hopen, rfl⟩⟩)
  rintro h n p ⟨m, hm, rfl, hopen, rfl⟩
  exact h m hm hopen

theorem blocksInLaw_iff {s : State} : s.blocksInLaw ↔
    (s.store.map Message.chain).flatten.Nodup ∧ ∀ l ∈ s.store.map Message.chain, ∀ b ∈ l, b < Config.blocks := by
  simp only [State.blocksInLaw, List.flatMap_def, List.forall_mem_map]

/-- The holding clause of the law of the entries, for one copy. -/
def State.entryStands (s : State) (p : Port) (n i : Nat) : Prop := ∃ e ∈ s.lists.get p, e.number = n ∧ e.index = i

/-- The entries of a list: each tells the state of its copy. -/
def State.entriesTrue (s : State) (p : Port) : Prop :=
  ∀ e ∈ s.lists.get p, e.extensions ≤ 2 ∧ ∃ c, s.copyAt e.number e.index = some c
    ∧ c.state = some (if e.withdrawing then .withdrawing p else .taken p)

theorem copyAt_eq_some_iff {s : State} (hdistinct : s.numbersDistinct) {n i : Nat} {c : Copy} :
    s.copyAt n i = some c ↔ ∃ m ∈ s.store, m.number = n ∧ m.copies[i]? = some c := by
  rw [State.copyAt, Option.bind_eq_some_iff]
  constructor
  · rintro ⟨m, hm, hc⟩
    exact ⟨m, findMsg_mem hm, findMsg_number hm, hc⟩
  · rintro ⟨m, hm, rfl, hc⟩
    exact ⟨m, findMsg_of_mem hdistinct hm, hc⟩

theorem entriesInLaw_iff {s : State} (hdistinct : s.numbersDistinct) : s.entriesInLaw ↔
    ∀ p, ((s.lists.get p).map Entry.ref).Nodup ∧ s.entriesTrue p
      ∧ (s.powered = true → ∀ n i c, s.copyAt n i = some c → c.holder = some p → s.entryStands p n i) := by
  refine forall_congr' fun p => and_congr_right' (and_congr_right' (imp_congr_right fun _ => ⟨fun h n i c hc hholder => ?_,
    fun h m hm i c hc hholder => h m.number i c ((copyAt_eq_some_iff hdistinct).mpr ⟨m, hm, rfl, hc⟩) hholder⟩))
  obtain ⟨m, hm, rfl, hget⟩ := (copyAt_eq_some_iff hdistinct).mp hc
  exact h m hm i c hget hholder

/-! ### The whole law -/

/-- The law of the whole store, but for the entries and the store-low condition. -/
structure State.Sound (s : State) : Prop where
  numbers : s.numbersInLaw
  keys : s.keysInLaw
  messages : ∀ m ∈ s.store, m.inLaw
  blocks : s.blocksInLaw
  lodges : s.lodgesInLaw
  book : s.bookInLaw
  attempts : s.attemptsInLaw
  holds : s.holdsInLaw

/-- The law of the whole store, but for the store-low condition. -/
structure State.Lawful (s : State) : Prop extends s.Sound where
  entries : s.entriesInLaw

theorem State.wholeInLaw.lawful {s : State} (h : s.wholeInLaw) : s.Lawful := by
  obtain ⟨hstore, hkeys, hmessages, hblocks, hlodges, hbook, hentries, hattempts, hholds⟩ := h
  exact ⟨⟨(storeInLaw_iff.mp hstore).1, hkeys, hmessages, hblocks, hlodges, hbook, hattempts, hholds⟩, hentries⟩

theorem State.Lawful.wholeInLaw {s : State} (h : s.Lawful) (hstore : s.storeInLaw) : s.wholeInLaw :=
  ⟨hstore, h.keys, h.messages, h.blocks, h.lodges, h.book, h.entries, h.attempts, h.holds⟩

theorem State.Sound.distinct {s : State} (h : s.Sound) : s.numbersDistinct := h.numbers.distinct

/-! ### What the law reads -/

/-- What the law of the whole store reads of a state. -/
def State.core (s : State) :=
  (s.store, s.dupTable, s.ring, s.lastNumber, s.lodges, s.book.length, s.waitingAt, s.lists, s.isChannel,
    (fun p => (s.channels.get p).state), s.mayHold, s.handOff.limits, s.powered)

theorem asksKnown_congr {s t : State} (hchannel : t.isChannel = s.isChannel)
    (hstates : (fun p => (t.channels.get p).state) = fun p => (s.channels.get p).state) (hwaiting : t.waitingAt = s.waitingAt)
    (h : s.asksKnown) : t.asksKnown := fun p n f hc hask => by
  rw [← isSome_waitingAt, hwaiting, isSome_waitingAt]
  exact h p n f (hchannel ▸ hc) ((congrFun hstates p).symm.trans hask)

theorem State.Lawful.of_core {s t : State} (hs : s.Lawful) (h : t.core = s.core) : t.Lawful := by
  simp only [State.core, Prod.mk.injEq] at h
  obtain ⟨hstore, htable, hring, hlast, hlodges, hlength, hwaiting, hlists, hchannel, hstates, hhold, hlimits, hpowered⟩ := h
  have hnumbers : t.numbersInLaw := numbersInLaw_of_shells (by rw [hstore]) htable hlast hs.numbers
  have hlive (e : Nat) : t.liveAt e = s.liveAt e := by rw [State.liveAt, hstore, State.liveAt]
  have hlimit (prec : Prec) : t.limit prec = s.limit prec := by rw [State.limit, hlimits, State.limit]
  have hcopy (n i : Nat) : t.copyAt n i = s.copyAt n i := by
    rw [State.copyAt, State.findMsg, hstore, State.copyAt, State.findMsg]
  obtain ⟨hbook, hown, hstations, hasks, hcounts⟩ := bookInLaw_iff.mp hs.book
  refine ⟨⟨hnumbers, ?_, ?_, ?_, ?_, ?_, ?_, ?_⟩, ?_⟩
  · unfold State.keysInLaw; rw [htable, hring]; exact hs.keys
  · rw [hstore]; exact hs.messages
  · unfold State.blocksInLaw; rw [hstore]; exact hs.blocks
  · unfold State.lodgesInLaw; rw [hstore, hlodges, hpowered]; exact hs.lodges
  · refine bookInLaw_iff.mpr ⟨hlength.trans hbook, hwaiting ▸ hown, ?_, asksKnown_congr hchannel hstates hwaiting hasks, ?_⟩
    · rw [hstore, hwaiting]; exact hstations
    · simp only [hwaiting, hlive]; exact hcounts
  · unfold State.attemptsInLaw; simp only [hlimit, hstore]; exact hs.attempts
  · unfold State.holdsInLaw; simp only [hhold, hstore, hpowered]; exact hs.holds
  · have hentries := hs.entries
    unfold State.entriesInLaw at hentries ⊢
    simp only [hlists, hcopy, hpowered, hstore]
    exact hentries

/-! ### Changes that the law does not see -/

theorem waitingAt_congr {s t : State} (h : ∀ e, (t.station e).map Station.waiting = (s.station e).map Station.waiting) :
    t.waitingAt = s.waitingAt := funext h

/-- A change of the book that keeps its entries in use and their waiting counts. -/
theorem core_of_book {s : State} {book : List (Option Station)} (hlength : book.length = s.book.length)
    (h : ∀ e, ({ s with book := book }.station e).map Station.waiting = (s.station e).map Station.waiting) :
    { s with book := book }.core = s.core := by
  have hcore : { s with book := book }.core = (s.store, s.dupTable, s.ring, s.lastNumber, s.lodges, book.length,
    { s with book := book }.waitingAt, s.lists, s.isChannel, (fun p => (s.channels.get p).state), s.mayHold, s.handOff.limits,
    s.powered) := rfl
  rw [hcore, hlength, waitingAt_congr h]
  rfl

theorem updStation_core (s : State) (e : Nat) {f : Station → Station} (hf : ∀ st, (f st).waiting = st.waiting) :
    (s.updStation e f).core = s.core := by
  refine core_of_book (List.length_modify ..) fun d => ?_
  refine (congrArg (Option.map Station.waiting) (State.station_updStation s e d f)).trans ?_
  split
  next hd =>
    rw [hd, Option.map_map]
    exact congrFun (congrArg Option.map (funext hf)) _
  next => rfl

theorem checkLow_core (s : State) : s.checkLow.core = s.core := by rw [checkLow_eq]; rfl
theorem raiseWhere_core (s : State) (k : EventKind) (who : Port → Bool) : (s.raiseWhere k who).core = s.core := rfl
theorem updCounters_core (s : State) (p : Port) (f : Counters → Counters) : (s.updCounters p f).core = s.core := rfl
theorem localBack_core (s : State) (n i : Nat) : (s.localBack n i).core = s.core := by rw [localBack_frame]; rfl

theorem bookOutcome_core (s : State) (p : Port) (e : Nat) (o : ReportOutcome) : (s.bookOutcome p e o).core = s.core := by
  rw [bookOutcome_eq]
  refine updStation_core s e fun st => ?_
  split
  · cases o <;> rfl
  · rfl

theorem decayAll_waiting (s : State) (d e : Nat) : ((s.decayAll d).station e).map Station.waiting = (s.station e).map Station.waiting := by
  rw [State.station_decayAll, Option.map_map]
  rfl

theorem decayAll_core (s : State) (d : Nat) : (s.decayAll d).core = s.core :=
  core_of_book (s := s) (book := (s.decayAll d).book) (by rw [State.decayAll]; simp) (decayAll_waiting s d)

/-! ### Records kept -/

/-- `t` has the messages of `s`, but for their copies and whether they are closed, and the same keys, numbers and lodge contexts. -/
def State.keepsRecords (t s : State) : Prop :=
  t.store.map Message.shell = s.store.map Message.shell ∧ t.store.map Message.opening = s.store.map Message.opening
    ∧ t.dupTable = s.dupTable ∧ t.ring = s.ring ∧ t.lastNumber = s.lastNumber ∧ t.lodges = s.lodges ∧ t.powered = s.powered

section
variable {s t : State}

theorem State.keepsRecords.numbers (h : t.keepsRecords s) (hs : s.numbersInLaw) : t.numbersInLaw := by
  obtain ⟨hshells, -, htable, -, hlast, -, -⟩ := h
  exact numbersInLaw_of_shells hshells htable hlast hs

theorem State.keepsRecords.keys (h : t.keepsRecords s) (hs : s.keysInLaw) : t.keysInLaw := by
  obtain ⟨-, -, htable, hring, -, -, -⟩ := h
  unfold State.keysInLaw
  rw [htable, hring]
  exact hs

theorem State.keepsRecords.blocks (h : t.keepsRecords s) (hs : s.blocksInLaw) : t.blocksInLaw := by
  rw [blocksInLaw_iff] at hs ⊢
  rw [map_of_shells h.1 Message.chain fun _ => rfl]
  exact hs

theorem State.keepsRecords.lodgesInLaw (h : t.keepsRecords s) (hs : s.lodgesInLaw) : t.lodgesInLaw := by
  obtain ⟨-, hopenings, -, -, -, hlodges, hpowered⟩ := h
  rw [lodgesInLaw_iff] at hs ⊢
  rw [hopenings, hlodges, hpowered]
  exact hs

end

end Sys2Proof.Machine
end

section
/-! PROOF. The law of the whole store is kept by the changes of copies (R5, R57, R63, R115). -/
namespace Sys2Proof.Machine

/-! ### One message -/

theorem terminal_eq {c : Copy} (h : c.state ≠ none) : c.terminal = !c.live := by
  unfold Copy.terminal Copy.live
  cases hc : c.state with
  | none => exact absurd hc h
  | some x => rfl

theorem rephase_isOpen (now : Nat) (m : Message) : (Message.rephase now m).isOpen = m.isOpen := by
  cases hphase : m.phase with
  | opened => simp only [Message.rephase, hphase]
  | filed f => simp only [Message.rephase, hphase, Message.isOpen]; split <;> simp [hphase]
  | closed f t => simp only [Message.rephase, hphase, Message.isOpen]; split <;> simp [hphase]

theorem rephase_opening (now : Nat) (m : Message) : (Message.rephase now m).opening = m.opening := by
  have hport : (Message.rephase now m).lodgedAt = m.lodgedAt := by unfold Message.rephase; split <;> (try split) <;> rfl
  rw [Message.opening, rephase_number, rephase_isOpen, hport, Message.opening]

theorem rephase_shell (now : Nat) (m : Message) : (Message.rephase now m).shell = m.shell := by
  unfold Message.rephase; split <;> (try split) <;> rfl

theorem all_terminal_iff {l : List Copy} (h : ∀ c ∈ l, c.state ≠ none) : l.all Copy.terminal = true ↔ ¬ ∃ c ∈ l, c.live = true := by
  rw [List.all_eq_true]
  constructor
  · rintro hall ⟨c, hc, hlive⟩
    have hterminal := hall c hc
    rw [terminal_eq (h c hc), hlive] at hterminal
    exact Bool.false_ne_true hterminal
  · intro hnone c hc
    rw [terminal_eq (h c hc), Bool.not_eq_true']
    exact Bool.eq_false_iff.mpr fun hlive => hnone ⟨c, hc, hlive⟩

/-- A filed message whose phase follows its copies is FILED or CLOSED as they say (R5). -/
theorem rephase_phase {m : Message} (hopen : m.isOpen = false) (hstates : ∀ c ∈ m.copies, c.state ≠ none) (now : Nat) :
    ((Message.rephase now m).isFiled = true → ∃ c ∈ m.copies, c.live = true)
      ∧ ((Message.rephase now m).isClosed = true → ∀ c ∈ m.copies, c.terminal = true) := by
  have hiff := all_terminal_iff hstates
  by_cases hall : m.copies.all Copy.terminal = true
  · have hclosed := List.all_eq_true.mp hall
    refine ⟨fun hfiled => absurd hfiled ?_, fun _ => hclosed⟩
    cases hphase : m.phase with
    | opened => exact absurd hphase (isOpen_eq_false_iff.mp hopen)
    | filed f => simp [Message.rephase, hphase, hall, Message.isFiled]
    | closed f t => simp [Message.rephase, hphase, hall, Message.isFiled]
  · refine ⟨fun _ => by_contra fun hnone => hall (hiff.mpr hnone), fun hclosed => absurd hclosed ?_⟩
    cases hphase : m.phase with
    | opened => exact absurd hphase (isOpen_eq_false_iff.mp hopen)
    | filed f => simp [Message.rephase, hphase, hall, Message.isClosed]
    | closed f t => simp [Message.rephase, hphase, hall, Message.isClosed]

theorem fields_of_shell {m m' : Message} (h : m'.shell = m.shell) : m'.body = m.body ∧ m'.chain = m.chain ∧ m'.prec = m.prec
    ∧ m'.number = m.number :=
  ⟨(congrArg Message.body h :), (congrArg Message.chain h :), (congrArg Message.prec h :), (congrArg Message.number h :)⟩

/-- A message with other copies, its phase following them. -/
theorem inLaw_rephase {m : Message} (hm : m.inLaw) (hopen : m.isOpen = false) {l : List Copy} (hlength : l.length = m.copies.length)
    (hstates : ∀ c ∈ l, c.state ≠ none) (now : Nat) : (Message.rephase now { m with copies := l }).inLaw := by
  obtain ⟨h1, h8, hbody, hchain, -, -, -⟩ := hm
  have hopen' : (Message.rephase now { m with copies := l }).isOpen = false := (rephase_isOpen ..).trans hopen
  obtain ⟨hfiled, hclosed⟩ := rephase_phase (m := { m with copies := l }) hopen hstates now
  obtain ⟨hb, hc, -, -⟩ := fields_of_shell ((rephase_shell now { m with copies := l }).trans rfl : _ = m.shell)
  have hcopies := rephase_copies now { m with copies := l }
  unfold Message.inLaw
  rw [hopen', hcopies, hb, hc]
  dsimp only
  rw [hlength]
  exact ⟨h1, h8, hbody, hchain, fun h => absurd h Bool.false_ne_true, fun h => ⟨hstates, hfiled h⟩, hclosed⟩

/-- The copies of a filed message have states. -/
theorem state_of_filed {m : Message} (hm : m.inLaw) (hopen : m.isOpen = false) {c : Copy} (hc : c ∈ m.copies) : c.state ≠ none := by
  obtain ⟨-, -, -, -, -, hfiled, hclosed⟩ := hm
  cases hphase : m.phase with
  | opened => exact absurd hphase (isOpen_eq_false_iff.mp hopen)
  | filed f => exact (hfiled (by simp [Message.isFiled, hphase])).1 c hc
  | closed f t =>
    have hterminal := hclosed (by simp [Message.isClosed, hphase]) c hc
    intro hnone
    simp [Copy.terminal, hnone] at hterminal

/-- A copy with a state is one of a filed message. -/
theorem isOpen_of_state {m : Message} (hm : m.inLaw) {c : Copy} (hc : c ∈ m.copies) (hstate : c.state ≠ none) : m.isOpen = false := by
  obtain ⟨-, -, -, -, hopened, -, -⟩ := hm
  by_contra hopen
  exact hstate (hopened (by simpa using hopen) c hc).1

/-! ### The change of one copy -/

/-- A change of a copy that the law of the store allows, but for the lists. -/
structure State.Allows (s : State) (m : Message) (c d : Copy) : Prop where
  filed : m.isOpen = false
  state : d.state ≠ none
  station : d.station = c.station
  attempts : d.attempts ≤ 15
  below : d.idle = true → d.attempts < s.limit m.prec
  hold : s.powered = true → ∀ k ends, d.state = some (.heldFor k ends) → s.mayHold k = true

/-- The holder of a copy gives it up, keeps it as it was, or is to give it up. -/
def Copy.mayFollow (c d : Copy) : Prop :=
  d.holder = none ∨ d.state = c.state ∨ ∃ j, c.state = some (.taken j) ∧ d.state = some (.withdrawing j)

theorem mem_copies_withCopy {m : Message} {i now : Nat} {d x : Copy} (hx : x ∈ (Message.withCopy now i d m).copies) :
    x ∈ m.copies ∨ x = d := by
  rw [withCopy_copies] at hx
  exact List.mem_or_eq_of_mem_set hx

section
variable {s : State} {n i : Nat} {m : Message} {c : Copy} (hm : s.findMsg n = some m) (hc : m.copies[i]? = some c) {f : Copy → Copy}
include hm hc

theorem copyAt_of_found : s.copyAt n i = some c := by rw [copyAt_of_findMsg hm, hc]

theorem mem_changeCopy (hdistinct : s.numbersDistinct) {x : Message} (hx : x ∈ (s.changeCopy n i f).store) :
    x ∈ s.store ∨ x = Message.withCopy s.clock i (f c) m := by
  rw [changeCopy_store (copyAt_of_found hm hc), State.updMsg] at hx
  obtain ⟨y, hy, rfl⟩ := List.mem_map.mp hx
  split
  next hn =>
    have hfound := findMsg_of_mem hdistinct hy
    rw [beq_iff_eq.mp hn, hm] at hfound
    exact .inr (by rw [← Option.some.inj hfound])
  next => exact .inl hy

theorem changeCopy_records : (s.changeCopy n i f).keepsRecords s := by
  have hstock := s.changeCopy_stock n i f
  simp only [State.stock, Prod.mk.injEq] at hstock
  obtain ⟨hshells, htable, hring, hlast, -, hpower⟩ := hstock
  refine ⟨hshells, ?_, htable, hring, hlast, by rw [State.changeCopy_frame], by rw [State.powered, hpower, State.powered]⟩
  rw [changeCopy_store (copyAt_of_found hm hc), State.updMsg, List.map_map]
  refine List.map_congr_left fun x _ => ?_
  rw [Function.comp_apply]
  split
  · exact rephase_opening s.clock { x with copies := x.copies.set i (f c) }
  · rfl

theorem changeCopy_sound (hs : s.Sound) (hallow : s.Allows m c (f c)) : (s.changeCopy n i f).Sound := by
  have hcopy := copyAt_of_found hm hc
  have hmem := findMsg_mem hm
  have hrecords := changeCopy_records hm hc (f := f)
  have hstore {x : Message} (hx : x ∈ (s.changeCopy n i f).store) := mem_changeCopy hm hc hs.distinct hx
  have hshell := withCopy_shell s.clock i (f c) m
  obtain ⟨hlength, hown, hstations, hasks, hcounts⟩ := bookInLaw_iff.mp hs.book
  have hwaiting (e : Nat) : (s.changeCopy n i f).waitingAt e = (s.waitingAt e).map fun w => w + (f c).weight e - c.weight e := by
    have hstation : (s.changeCopy n i f).station e = _ := station_changeCopy hcopy f e
    rw [State.waitingAt, hstation, State.waitingAt, Option.map_map, Option.map_map]
    refine congrFun (congrArg Option.map (funext fun st => ?_)) _
    simp only [Function.comp_apply, Copy.weight, hallow.station]
    by_cases he : c.station = e
    · cases c.live <;> cases (f c).live <;> simp [he, Station.recount]
    · simp [he]
  have hisSome (e : Nat) : ((s.changeCopy n i f).waitingAt e).isSome = (s.waitingAt e).isSome := by rw [hwaiting, Option.isSome_map]
  have hlimit (prec : Prec) : (s.changeCopy n i f).limit prec = s.limit prec := by
    rw [State.limit, State.changeCopy_frame]; rfl
  have hmayHold (k : Port) : (s.changeCopy n i f).mayHold k = s.mayHold k := by
    rw [State.changeCopy_frame]; rfl
  refine ⟨hrecords.numbers hs.numbers, hrecords.keys hs.keys, fun x hx => ?_, hrecords.blocks hs.blocks,
    hrecords.lodgesInLaw hs.lodges, bookInLaw_iff.mpr ⟨?_, ?_, fun x hx d hd => ?_, ?_, fun e w hw => ?_⟩, ⟨fun prec => ?_, fun x hx d hd => ?_⟩,
    fun hpowered x hx d hd k ends hstate => ?_⟩
  case refine_1 =>
    rcases hstore hx with hx | rfl
    · exact hs.messages x hx
    · refine inLaw_rephase (hs.messages m hmem) hallow.filed (List.length_set ..) (fun d hd => ?_) s.clock
      rcases List.mem_or_eq_of_mem_set hd with hd | rfl
      · exact state_of_filed (hs.messages m hmem) hallow.filed hd
      · exact hallow.state
  case refine_2 =>
    rw [changeCopy_book hcopy, List.length_modify]; exact hlength
  case refine_3 =>
    rw [hisSome]; exact hown
  case refine_4 =>
    rw [hisSome]
    rcases hstore hx with hx | rfl
    · exact hstations x hx d hd
    · rcases mem_copies_withCopy hd with hd | rfl
      · exact hstations m hmem d hd
      · rw [hallow.station]; exact hstations m hmem c (List.mem_of_getElem? hc)
  case refine_5 =>
    intro p k e hchannel hask
    rw [State.changeCopy_frame] at hchannel hask
    rw [← isSome_waitingAt, hisSome, isSome_waitingAt]
    exact hasks p k e hchannel hask
  case refine_6 =>
    rw [hwaiting] at hw
    obtain ⟨v, hv, rfl⟩ := Option.map_eq_some_iff.mp hw
    have hlive := liveAt_changeCopy hs.distinct hcopy f e
    rw [hcounts e v hv]
    omega
  case refine_7 => rw [hlimit]; exact hs.attempts.1 prec
  case refine_8 =>
    rw [hlimit]
    rcases hstore hx with hx | rfl
    · exact hs.attempts.2 x hx d hd
    · obtain ⟨-, -, hprec, -⟩ := fields_of_shell hshell
      rw [hprec]
      rcases mem_copies_withCopy hd with hd | rfl
      · exact hs.attempts.2 m hmem d hd
      · exact ⟨hallow.attempts, hallow.below⟩
  case refine_9 =>
    obtain ⟨-, -, -, -, -, -, hpower⟩ := hrecords
    rw [hpower] at hpowered
    rw [hmayHold]
    rcases hstore hx with hx | rfl
    · exact hs.holds hpowered x hx d hd k ends hstate
    · rcases mem_copies_withCopy hd with hd | rfl
      · exact hs.holds hpowered m hmem d hd k ends hstate
      · exact hallow.hold hpowered k ends hstate

end

/-! ### The lists after the change of one copy -/

/-- An entry marked as one to be given up, if it is that of a copy. -/
def Entry.marked (n i : Nat) (e : Entry) : Entry := if e.names n i then { e with withdrawing := true } else e

theorem names_iff {e : Entry} {n i : Nat} : e.names n i = true ↔ e.number = n ∧ e.index = i := by
  rw [Entry.names, Bool.and_eq_true, beq_iff_eq, beq_iff_eq]

theorem marked_ref (n i : Nat) (e : Entry) : (e.marked n i).ref = e.ref := by unfold Entry.marked; split <;> rfl

section
variable {s : State} {n i : Nat} {c : Copy} (hs : s.numbersDistinct) (hentries : s.entriesInLaw) (h : s.copyAt n i = some c)
  {f : Copy → Copy}
include hentries h

/-- An entry of a copy tells that its port is the holder. -/
theorem holder_of_entry {p : Port} {e : Entry} (he : e ∈ s.lists.get p) (hn : e.number = n) (hi : e.index = i) :
    c.state = some (if e.withdrawing then .withdrawing p else .taken p) ∧ c.holder = some p := by
  obtain ⟨-, x, hx, hstate⟩ := (hentries p).2.1 e he
  rw [hn, hi, h, Option.some.injEq] at hx
  subst hx
  refine ⟨hstate, holder_eq_some_iff.mpr ?_⟩
  cases hw : e.withdrawing <;> simp [hstate, hw]

include hs

/-- An entry and a copy of the change that are of one port. -/
theorem changeCopy_entries (hfollow : c.mayFollow (f c)) : (s.changeCopy n i f).entriesInLaw := by
  have hdistinct : (s.changeCopy n i f).numbersDistinct := by rw [State.numbersDistinct, changeCopy_numbers]; exact hs
  have hpowered : (s.changeCopy n i f).powered = s.powered := by rw [State.changeCopy_frame]; rfl
  have hlaw := (entriesInLaw_iff hs).mp hentries
  have hcopies := copyAt_changeCopy h f
  have hlists := changeCopy_lists h f
  refine (entriesInLaw_iff hdistinct).mpr fun p => ?_
  obtain ⟨hnodup, htrue, hstands⟩ := hlaw p
  rw [hpowered]
  -- what an entry of another copy tells stays true
  have hother {e : Entry} (he : e ∈ s.lists.get p) (hne : ¬ (e.number = n ∧ e.index = i)) :
      e.extensions ≤ 2 ∧ ∃ x, (s.changeCopy n i f).copyAt e.number e.index = some x
        ∧ x.state = some (if e.withdrawing then .withdrawing p else .taken p) := by
    rw [hcopies, if_neg hne]
    exact htrue e he
  -- a copy that has a holder after the change had it before
  have hbefore {k j : Nat} {x : Copy} (hx : (s.changeCopy n i f).copyAt k j = some x) (hxp : x.holder = some p) :
      ∃ y, s.copyAt k j = some y ∧ y.holder = some p := by
    rw [hcopies] at hx
    split at hx
    next hkj =>
      obtain ⟨rfl, rfl⟩ := hkj
      cases hx
      refine ⟨c, h, ?_⟩
      rcases hfollow with hnone | hsame | ⟨j, hc, hd⟩
      · rw [hnone] at hxp; cases hxp
      · rw [Copy.holder, ← hsame]; exact hxp
      · rw [Copy.holder, hd] at hxp
        rw [Copy.holder, hc]
        exact hxp
    next => exact ⟨x, hx, hxp⟩
  by_cases hcp : c.holder = some p
  · by_cases hd : (f c).holder = some p
    · -- the holder keeps the copy, and its entry is marked where it is to give it up
      by_cases hwithdrawing : (f c).state = some (.withdrawing p)
      · have hlist : (s.changeCopy n i f).lists.get p = (s.lists.get p).map (Entry.marked n i) := by
          rw [hlists, State.followHolder, hcp]
          simp only [hd, beq_self_eq_true, if_true, hwithdrawing]
          exact PerPort.get_set_self ..
        have hmarked (e : Entry) : (e.marked n i).extensions = e.extensions ∧ (e.marked n i).number = e.number
            ∧ (e.marked n i).index = e.index := by unfold Entry.marked; split <;> exact ⟨rfl, rfl, rfl⟩
        refine ⟨?_, fun e he => ?_, fun hp k j x hx hxp => ?_⟩
        · rw [hlist, List.map_map]
          have href : Entry.ref ∘ Entry.marked n i = Entry.ref := funext fun e => marked_ref n i e
          rw [href]
          exact hnodup
        · rw [hlist] at he
          obtain ⟨y, hy, rfl⟩ := List.mem_map.mp he
          by_cases hnames : y.names n i = true
          · have hy' : y.marked n i = { y with withdrawing := true } := if_pos hnames
            rw [hy']
            refine ⟨(htrue y hy).1, f c, ?_, hwithdrawing⟩
            rw [hcopies, if_pos (names_iff.mp hnames)]
          · have hy' : y.marked n i = y := if_neg hnames
            rw [hy']
            exact hother hy (mt names_iff.mpr hnames)
        · obtain ⟨y, hy, hyp⟩ := hbefore hx hxp
          obtain ⟨e, he, hn, hi⟩ := hstands hp k j y hy hyp
          obtain ⟨-, hnumber, hindex⟩ := hmarked e
          exact ⟨e.marked n i, hlist ▸ List.mem_map_of_mem he, hnumber.trans hn, hindex.trans hi⟩
      · -- it stays TAKEN
        have hstate : (f c).state = some (.taken p) := (holder_eq_some_iff.mp hd).resolve_right hwithdrawing
        have hsame : (f c).state = c.state := by
          rcases hfollow with hnone | hsame | ⟨j, -, hj⟩
          · rw [hnone] at hd; cases hd
          · exact hsame
          · rw [hstate] at hj; cases hj
        have hlist : (s.changeCopy n i f).lists.get p = s.lists.get p := by
          rw [hlists, State.followHolder, hcp]
          simp only [hd, beq_self_eq_true, if_true, hstate]
          rfl
        refine ⟨hlist ▸ hnodup, fun e he => ?_, fun hp k j x hx hxp => ?_⟩
        · rw [hlist] at he
          by_cases hnames : e.number = n ∧ e.index = i
          · refine ⟨(htrue e he).1, f c, ?_, ?_⟩
            · rw [hcopies, if_pos hnames]
            · rw [hsame]; exact (holder_of_entry hentries h he hnames.1 hnames.2).1
          · exact hother he hnames
        · obtain ⟨y, hy, hyp⟩ := hbefore hx hxp
          obtain ⟨e, he, hn, hi⟩ := hstands hp k j y hy hyp
          exact ⟨e, hlist ▸ he, hn, hi⟩
    · -- the holder gives the copy up, and its entry goes
      have hlist : (s.changeCopy n i f).lists.get p = (s.lists.get p).filter fun e => !e.names n i := by
        rw [hlists, State.followHolder, hcp]
        simp only [beq_iff_eq, if_neg hd]
        exact PerPort.get_set_self ..
      have hmem {e : Entry} : e ∈ (s.changeCopy n i f).lists.get p ↔ e ∈ s.lists.get p ∧ ¬ (e.number = n ∧ e.index = i) := by
        rw [hlist, List.mem_filter, Bool.not_eq_true', ← Bool.not_eq_true, names_iff]
      refine ⟨?_, fun e he => ?_, fun hp k j x hx hxp => ?_⟩
      · rw [hlist]
        exact hnodup.sublist (List.filter_sublist.map _)
      · obtain ⟨he, hne⟩ := hmem.mp he
        exact hother he hne
      · have hkj : ¬ (k = n ∧ j = i) := fun hkj => by
          rw [hcopies, if_pos hkj] at hx
          cases hx
          exact hd hxp
        obtain ⟨y, hy, hyp⟩ := hbefore hx hxp
        obtain ⟨e, he, hn, hi⟩ := hstands hp k j y hy hyp
        exact ⟨e, hmem.mpr ⟨he, by rw [hn, hi]; exact hkj⟩, hn, hi⟩
  · -- another port's list is as it was
    have hlist : (s.changeCopy n i f).lists.get p = s.lists.get p := by
      rw [hlists]
      exact followHolder_lists_of_ne hcp _
    refine ⟨hlist ▸ hnodup, fun e he => ?_, fun hp k j x hx hxp => ?_⟩
    · rw [hlist] at he
      exact hother he fun hnames => hcp (holder_of_entry hentries h he hnames.1 hnames.2).2
    · obtain ⟨y, hy, hyp⟩ := hbefore hx hxp
      obtain ⟨e, he, hn, hi⟩ := hstands hp k j y hy hyp
      exact ⟨e, hlist ▸ he, hn, hi⟩

end

/-- A change of one copy keeps the law where it is allowed. -/
theorem changeCopy_lawful {s : State} {n i : Nat} {f : Copy → Copy} (hs : s.Lawful) (hallow : ∀ m c, s.findMsg n = some m →
    m.copies[i]? = some c → s.Allows m c (f c) ∧ c.mayFollow (f c)) : (s.changeCopy n i f).Lawful := by
  cases h : s.copyAt n i with
  | none => rw [State.changeCopy_none h]; exact hs
  | some c =>
    obtain ⟨m, hm, hc⟩ := Option.bind_eq_some_iff.mp h
    obtain ⟨hallowed, hfollow⟩ := hallow m c hm hc
    exact ⟨changeCopy_sound hm hc hs.toSound hallowed, changeCopy_entries hs.distinct hs.entries h hfollow⟩

end Sys2Proof.Machine
end

section
/-! PROOF. The changes of copies that the law of the store allows, one by one and in runs (R63, R69, R75, R81, R83, R112, R133, R135). -/
namespace Sys2Proof.Machine

/-! ### Changes that are allowed -/

theorem idle_of_heldFor {c : Copy} {k : Port} {ends : Nat} (h : c.state = some (.heldFor k ends)) : c.idle = true :=
  idle_iff.mpr (.inr ⟨k, ends, h⟩)

section
variable {s : State} {m : Message} {c d : Copy}

/-- A copy that neither waits nor is held. -/
theorem State.Allows.settled (h : s.Allows m c c) (hstate : d.state ≠ none) (hstation : d.station = c.station) (hattempts : d.attempts ≤ 15)
    (hidle : d.idle = false) : s.Allows m c d :=
  ⟨h.filed, hstate, hstation, hattempts, fun hd => absurd (hidle ▸ hd) Bool.false_ne_true,
    fun _ _ _ hd => absurd (hidle ▸ idle_of_heldFor hd) Bool.false_ne_true⟩

/-- A copy that waits. -/
theorem State.Allows.waits (h : s.Allows m c c) (hstate : d.state = some .waiting) (hstation : d.station = c.station)
    (hattempts : d.attempts ≤ 15) (hbelow : d.attempts < s.limit m.prec) : s.Allows m c d :=
  ⟨h.filed, by rw [hstate]; exact nofun, hstation, hattempts, fun _ => hbelow, fun _ _ _ hd => by rw [hstate] at hd; cases hd⟩

/-- A copy that enters WAITING, held for its station's affinity port or not. -/
theorem State.Allows.enters (h : s.Allows m c c) {x : Copy} (hstate : d.state = some (s.entryState m.prec x)) (hstation : d.station = c.station)
    (hattempts : d.attempts ≤ 15) (hbelow : d.attempts < s.limit m.prec) : s.Allows m c d := by
  rcases entryState_cases s m.prec x with hx | ⟨k, ends, hx, hhold⟩
  · exact h.waits (hstate.trans (by rw [hx])) hstation hattempts hbelow
  · rw [hx] at hstate
    refine ⟨h.filed, by rw [hstate]; exact nofun, hstation, hattempts, fun _ => hbelow, fun _ k' ends' hd => ?_⟩
    rw [hstate] at hd
    cases hd
    exact hhold

theorem mayFollow_of_holder (h : d.holder = none) : c.mayFollow d := .inl h

theorem holder_of_state {x : CopyState} (h : d.state = some x) : d.holder = x.holder := by rw [Copy.holder, h]; rfl

/-- A copy lost by its holder (R69, R73). -/
theorem allows_lost (h : s.Allows m c c) : s.Allows m c (c.lost (s.limit m.prec)) ∧ c.mayFollow (c.lost (s.limit m.prec)) := by
  refine ⟨?_, mayFollow_of_holder (lost_holder ..)⟩
  cases hc : c.holder with
  | none => rw [lost_of_not_held hc]; exact h
  | some p =>
    rw [lost_eq hc]
    rcases holder_eq_some_iff.mp hc with htaken | hwithdrawing
    · by_cases hlimit : s.limit m.prec ≤ c.attempts
      · refine h.settled ?_ rfl h.attempts ?_ <;> simp [htaken, hlimit, Copy.idle]
      · exact h.waits (by simp [htaken, hlimit]) rfl h.attempts (Nat.not_le.mp hlimit)
    · refine h.settled ?_ rfl h.attempts ?_ <;> simp [hwithdrawing, Copy.idle]

/-- A copy cancelled (R75, R76). -/
theorem allows_cancel (h : s.Allows m c c) : s.Allows m c c.cancel ∧ c.mayFollow c.cancel := by
  cases hidle : c.idle with
  | true =>
    rw [cancel_of_idle hidle]
    exact ⟨h.settled nofun rfl h.attempts rfl, mayFollow_of_holder rfl⟩
  | false =>
    by_cases htaken : c.isTaken = true
    · obtain ⟨j, hj⟩ := isTaken_iff.mp htaken
      rw [cancel_of_taken hj]
      exact ⟨h.settled nofun rfl h.attempts rfl, .inr (.inr ⟨j, hj, rfl⟩)⟩
    · rw [cancel_of_neither (by rw [cancellable_eq, hidle, Bool.eq_false_iff.mpr htaken]; rfl)]
      exact ⟨h, .inr (.inl rfl)⟩

/-- A copy given up (R70, R140). -/
theorem allows_failed (h : s.Allows m c c) : s.Allows m c (c.become .failed) ∧ c.mayFollow (c.become .failed) :=
  ⟨h.settled nofun rfl h.attempts rfl, mayFollow_of_holder rfl⟩

/-- A copy that no port is held for any more (R65, R115). -/
theorem allows_released (h : s.Allows m c c) (hidle : c.idle = true) :
    s.Allows m c (c.become .waiting) ∧ c.mayFollow (c.become .waiting) :=
  ⟨h.waits rfl rfl h.attempts (h.below hidle), mayFollow_of_holder rfl⟩

/-- A copy pinned (R81). -/
theorem allows_pinTo (h : s.Allows m c c) (k : Option Port) : s.Allows m c (c.pinTo k) ∧ c.mayFollow (c.pinTo k) := by
  have hkeep {d : Copy} (hstate : d.state = c.state) (hstation : d.station = c.station) (hattempts : d.attempts = c.attempts) :
      s.Allows m c d ∧ c.mayFollow d := by
    have hidle : d.idle = c.idle := by rw [Copy.idle, hstate, Copy.idle]
    refine ⟨⟨h.filed, hstate ▸ h.state, hstation, hattempts ▸ h.attempts, fun hd => ?_, fun hp p ends hd => ?_⟩, .inr (.inl hstate)⟩
    · rw [hattempts]; exact h.below (hidle ▸ hd)
    · exact h.hold hp p ends (hstate ▸ hd)
  unfold Copy.pinTo
  dsimp only
  split
  next p q ends hstate =>
    split
    · exact hkeep rfl rfl rfl
    · have hbelow := h.below (idle_of_heldFor hstate)
      exact ⟨h.waits rfl rfl h.attempts hbelow, mayFollow_of_holder rfl⟩
  next => exact hkeep rfl rfl rfl

/-- A FAILED copy put back among those that wait (R83). -/
theorem allows_requeued (h : s.Allows m c c) (hlimit : 1 ≤ s.limit m.prec) :
    s.Allows m c (s.requeued m.prec c) ∧ c.mayFollow (s.requeued m.prec c) := by
  by_cases hfailed : c.state = some .failed
  · rw [requeued_of_failed hfailed]
    exact ⟨h.enters rfl rfl (Nat.zero_le _) hlimit, mayFollow_of_holder (entryState_holder ..)⟩
  · rw [requeued_of_not_failed hfailed]
    exact ⟨h, .inr (.inl rfl)⟩

/-- A copy with a late outcome (R135). -/
theorem allows_lateAfter (h : s.Allows m c c) (p : Port) (o : ReportOutcome) (relay : Call) :
    s.Allows m c (s.lateAfter p o relay c) ∧ c.mayFollow (s.lateAfter p o relay c) := by
  unfold State.lateAfter
  dsimp only
  split
  · exact ⟨h.settled nofun rfl h.attempts rfl, mayFollow_of_holder rfl⟩
  · exact ⟨h.settled nofun rfl h.attempts rfl, mayFollow_of_holder rfl⟩

/-- A TAKEN copy with its holder's outcome (R133). -/
theorem allows_takenAfter (h : s.Allows m c c) (p : Port) (o : ReportOutcome) (relay : Call) :
    s.Allows m c (s.takenAfter p m o relay c) ∧ c.mayFollow (s.takenAfter p m o relay c) := by
  cases o with
  | delivered => exact ⟨h.settled nofun rfl h.attempts rfl, mayFollow_of_holder rfl⟩
  | relayed => exact ⟨h.settled nofun rfl h.attempts rfl, mayFollow_of_holder rfl⟩
  | noContact =>
    unfold State.takenAfter
    dsimp only
    split
    · exact ⟨h.settled nofun rfl (Nat.min_le_left ..) rfl, mayFollow_of_holder rfl⟩
    next hbelow => exact ⟨h.waits rfl rfl (Nat.min_le_left ..) (Nat.not_le.mp hbelow), mayFollow_of_holder rfl⟩
  | returned =>
    unfold State.takenAfter
    dsimp only
    split
    · exact ⟨h.settled nofun rfl h.attempts rfl, mayFollow_of_holder rfl⟩
    next hbelow => exact ⟨h.enters rfl rfl h.attempts (Nat.not_le.mp hbelow), mayFollow_of_holder (entryState_holder ..)⟩

/-- A WITHDRAWING copy with its holder's outcome (R134). -/
theorem allows_withdrawnAfter (h : s.Allows m c c) (p : Port) (o : ReportOutcome) :
    s.Allows m c (s.withdrawnAfter p o c) ∧ c.mayFollow (s.withdrawnAfter p o c) := by
  cases o with
  | delivered | relayed | noContact | returned => exact ⟨h.settled nofun rfl h.attempts rfl, mayFollow_of_holder rfl⟩

end

/-! ### Runs of changes -/

/-- A copy of a filed message is allowed as it is. -/
theorem State.Lawful.allows_self {s : State} (hs : s.Lawful) {n i : Nat} {m : Message} {c : Copy} (hm : s.findMsg n = some m)
    (hc : m.copies[i]? = some c) (hfiled : m.isOpen = false) : s.Allows m c c := by
  have hmem := findMsg_mem hm
  have hcopy := List.mem_of_getElem? hc
  obtain ⟨hattempts, hbelow⟩ := hs.attempts.2 m hmem c hcopy
  exact ⟨hfiled, state_of_filed (hs.messages m hmem) hfiled hcopy, rfl, hattempts, hbelow, fun hp => hs.holds hp m hmem c hcopy⟩

/-- A copy's change that the law allows whatever lawful copy stands there. -/
def State.allowsAt (s : State) (n : Nat) (f : Copy → Copy) : Prop :=
  ∀ m c, s.findMsg n = some m → m.isOpen = false ∧ (s.Allows m c c → s.Allows m c (f c) ∧ c.mayFollow (f c))

theorem changeCopy_lawful_of_allowsAt {s : State} {n i : Nat} {f : Copy → Copy} (hs : s.Lawful) (h : s.allowsAt n f) :
    (s.changeCopy n i f).Lawful :=
  changeCopy_lawful hs fun m c hm hc => (h m c hm).2 (hs.allows_self hm hc (h m c hm).1)

/-- `t` has the limits and the channels of `s`, and its messages are open or filed and have their precedence as those of `s`. -/
structure State.sameRules (t s : State) : Prop where
  limit : ∀ prec, t.limit prec = s.limit prec
  hold : ∀ k, t.mayHold k = s.mayHold k
  powered : t.powered = s.powered
  messages : ∀ k, (t.findMsg k).map (fun m => (m.isOpen, m.prec)) = (s.findMsg k).map fun m => (m.isOpen, m.prec)

theorem State.sameRules.trans {s t u : State} (h : u.sameRules t) (h' : t.sameRules s) : u.sameRules s :=
  ⟨fun x => (h.limit x).trans (h'.limit x), fun k => (h.hold k).trans (h'.hold k), h.powered.trans h'.powered,
    fun k => (h.messages k).trans (h'.messages k)⟩

theorem changeCopy_sameRules (s : State) (n i : Nat) (f : Copy → Copy) : (s.changeCopy n i f).sameRules s := by
  refine ⟨fun _ => ?_, fun _ => ?_, ?_, fun k => ?_⟩
  · rw [State.changeCopy_frame]; rfl
  · rw [State.changeCopy_frame]; rfl
  · rw [State.changeCopy_frame]; rfl
  · cases h : s.copyAt n i with
    | none => rw [State.changeCopy_none h]
    | some c =>
      rw [findMsg_changeCopy h]
      split
      next hk =>
        rw [hk, Option.map_map]
        refine congrFun (congrArg Option.map (funext fun m => ?_)) _
        obtain ⟨-, -, hprec, -⟩ := fields_of_shell (withCopy_shell s.clock i (f c) m)
        have hopen : (Message.withCopy s.clock i (f c) m).isOpen = m.isOpen := rephase_isOpen ..
        rw [Function.comp_apply, hprec, hopen]
      next => rfl

theorem State.sameRules.allows {s t : State} (h : t.sameRules s) {m m' : Message} (hopen : m'.isOpen = m.isOpen) (hprec : m'.prec = m.prec)
    {c d : Copy} : t.Allows m' c d ↔ s.Allows m c d := by
  constructor
  · rintro ⟨h1, h2, h3, h4, h5, h6⟩
    exact ⟨hopen ▸ h1, h2, h3, h4, fun hd => by rw [← h.limit, ← hprec]; exact h5 hd,
      fun hp k ends hd => by rw [← h.hold]; exact h6 (h.powered.trans hp) k ends hd⟩
  · rintro ⟨h1, h2, h3, h4, h5, h6⟩
    exact ⟨hopen ▸ h1, h2, h3, h4, fun hd => by rw [h.limit, hprec]; exact h5 hd,
      fun hp k ends hd => by rw [h.hold]; exact h6 (h.powered.symm.trans hp) k ends hd⟩

theorem State.sameRules.allowsAt {s t : State} (h : t.sameRules s) {n : Nat} {f : Copy → Copy} (hs : s.allowsAt n f) : t.allowsAt n f := by
  intro m' c hm'
  have hmessages := h.messages n
  rw [hm', Option.map_some, eq_comm, Option.map_eq_some_iff] at hmessages
  obtain ⟨m, hm, heq⟩ := hmessages
  simp only [Prod.mk.injEq] at heq
  obtain ⟨hopen, hprec⟩ := heq
  obtain ⟨hfiled, hallow⟩ := hs m c hm
  have hiff {d : Copy} := h.allows (m := m) (m' := m') hopen.symm hprec.symm (c := c) (d := d)
  refine ⟨hopen.symm.trans hfiled, fun hself => ?_⟩
  obtain ⟨hallowed, hfollow⟩ := hallow (hiff.mp hself)
  exact ⟨hiff.mpr hallowed, hfollow⟩

/-- A run of allowed changes. -/
theorem changeEach_lawful {s : State} (hs : s.Lawful) {refs : List (Nat × Nat)} {g : Nat → Nat → Copy → Copy}
    (h : ∀ r ∈ refs, s.allowsAt r.1 (g r.1 r.2)) : (s.changeEach refs g).Lawful ∧ (s.changeEach refs g).sameRules s := by
  induction refs using List.reverseRecOn with
  | nil => exact ⟨hs, ⟨fun _ => rfl, fun _ => rfl, rfl, fun _ => rfl⟩⟩
  | append_singleton refs r ih =>
    obtain ⟨hlawful, hrules⟩ := ih fun x hx => h x (List.mem_append_left _ hx)
    rw [changeEach_concat]
    have hallow := hrules.allowsAt (h r (List.mem_append_right _ (List.mem_singleton.mpr rfl)))
    exact ⟨changeCopy_lawful_of_allowsAt hlawful hallow, (changeCopy_sameRules ..).trans hrules⟩

end Sys2Proof.Machine
end

section
/-! PROOF. The requests and events that change copies and channels keep the law of the whole store (R63, R65, R69, R71, R75 to R84, R109, R115,
R120 to R138, R143). -/
namespace Sys2Proof.Machine

/-! ### Holds ended -/

theorem release_copy (k : Port) (c : Copy) : (if c.heldFor k then c.become .waiting else c).station = c.station
    ∧ (if c.heldFor k then c.become .waiting else c).attempts = c.attempts
    ∧ (if c.heldFor k then c.become .waiting else c).uncertain = c.uncertain
    ∧ (if c.heldFor k then c.become .waiting else c).pinned = c.pinned := by
  split <;> exact ⟨rfl, rfl, rfl, rfl⟩

theorem heldFor_iff {c : Copy} {k : Port} : c.heldFor k = true ↔ ∃ ends, c.state = some (.heldFor k ends) := by
  unfold Copy.heldFor
  split
  next p ends h => simp [h]
  next h => exact ⟨fun h => absurd h Bool.false_ne_true, fun ⟨ends, hk⟩ => absurd hk (h k ends)⟩

/-- A released copy waits, any other is as it was. -/
theorem release_state (k : Port) (c : Copy) : (if c.heldFor k then c.become .waiting else c).state
    = if c.heldFor k then some .waiting else c.state := by
  split <;> rfl

section
variable (k : Port) (c : Copy)

theorem release_facts : ((if c.heldFor k then c.become .waiting else c).state = none ↔ c.state = none)
    ∧ (if c.heldFor k then c.become .waiting else c).live = c.live
    ∧ (if c.heldFor k then c.become .waiting else c).terminal = c.terminal
    ∧ (if c.heldFor k then c.become .waiting else c).holder = c.holder
    ∧ (if c.heldFor k then c.become .waiting else c).idle = c.idle := by
  split
  next h =>
    obtain ⟨ends, hstate⟩ := heldFor_iff.mp h
    simp [Copy.become, Copy.live, Copy.terminal, Copy.holder, Copy.idle, hstate, CopyState.live, CopyState.holder]
  next => exact ⟨Iff.rfl, rfl, rfl, rfl, rfl⟩

end

theorem release_inLaw {m : Message} (h : m.inLaw) (k : Port) : (m.release k).inLaw := by
  obtain ⟨h1, h8, hbody, hchain, hopen, hfiled, hclosed⟩ := h
  refine ⟨?_, ?_, hbody, hchain, fun ho c hc => ?_, fun hf => ⟨fun c hc => ?_, ?_⟩, fun hcl c hc => ?_⟩
  · rw [Message.release, List.length_map]; exact h1
  · rw [Message.release, List.length_map]; exact h8
  · obtain ⟨d, hd, rfl⟩ := List.mem_map.mp hc
    obtain ⟨hstate, hattempts, huncertain, hpinned⟩ := hopen ho d hd
    obtain ⟨-, h2, h3, h4⟩ := release_copy k d
    exact ⟨(release_facts k d).1.mpr hstate, h2.trans hattempts, h3.trans huncertain, h4.trans hpinned⟩
  · obtain ⟨d, hd, rfl⟩ := List.mem_map.mp hc
    exact mt (release_facts k d).1.mp ((hfiled hf).1 d hd)
  · obtain ⟨d, hd, hlive⟩ := (hfiled hf).2
    exact ⟨_, List.mem_map_of_mem hd, (release_facts k d).2.1.trans hlive⟩
  · obtain ⟨d, hd, rfl⟩ := List.mem_map.mp hc
    exact (release_facts k d).2.2.1.trans (hclosed hcl d hd)

theorem liveAt_releaseHolds (s : State) (k : Port) (e : Nat) : (s.releaseHolds k).liveAt e = s.liveAt e := by
  rw [State.liveAt, State.releaseHolds, List.map_map]
  refine congrArg List.sum (List.map_congr_left fun m _ => ?_)
  simp only [Function.comp_apply, Message.liveFor, List.countP_map]
  refine List.countP_congr fun c _ => ?_
  rw [Function.comp_apply, (release_facts k c).2.1, (release_copy k c).1]

theorem mem_releaseHolds {s : State} {k : Port} {m : Message} (h : m ∈ (s.releaseHolds k).store) : ∃ x ∈ s.store, m = x.release k := by
  obtain ⟨x, hx, rfl⟩ := List.mem_map.mp h
  exact ⟨x, hx, rfl⟩

/-- The law stands when the holds for a channel end. -/
theorem releaseHolds_lawful {s : State} (hs : s.Lawful) (k : Port) : (s.releaseHolds k).Lawful := by
  have hrecords : (s.releaseHolds k).keepsRecords s := by
    refine ⟨?_, ?_, rfl, rfl, rfl, rfl, rfl⟩ <;> rw [State.releaseHolds, List.map_map] <;> rfl
  have hnumbers := hrecords.numbers hs.numbers
  obtain ⟨hlength, hown, hstations, hasks, hcounts⟩ := bookInLaw_iff.mp hs.book
  refine ⟨⟨hnumbers, hrecords.keys hs.keys, fun m hm => ?_, hrecords.blocks hs.blocks, hrecords.lodgesInLaw hs.lodges,
    bookInLaw_iff.mpr ⟨hlength, hown, fun m hm c hc => ?_, hasks, fun e w hw => ?_⟩, ⟨hs.attempts.1, fun m hm c hc => ?_⟩,
    fun hpowered m hm c hc j ends hstate => ?_⟩, (entriesInLaw_iff hnumbers.distinct).mpr fun p => ?_⟩
  case refine_1 =>
    obtain ⟨x, hx, rfl⟩ := mem_releaseHolds hm
    exact release_inLaw (hs.messages x hx) k
  case refine_2 =>
    obtain ⟨x, hx, rfl⟩ := mem_releaseHolds hm
    obtain ⟨d, hd, rfl⟩ := List.mem_map.mp hc
    rw [(release_copy k d).1]
    exact hstations x hx d hd
  case refine_3 => rw [liveAt_releaseHolds]; exact hcounts e w hw
  case refine_4 =>
    obtain ⟨x, hx, rfl⟩ := mem_releaseHolds hm
    obtain ⟨d, hd, rfl⟩ := List.mem_map.mp hc
    rw [(release_copy k d).2.1, (release_facts k d).2.2.2.2]
    exact hs.attempts.2 x hx d hd
  case refine_5 =>
    obtain ⟨x, hx, rfl⟩ := mem_releaseHolds hm
    obtain ⟨d, hd, rfl⟩ := List.mem_map.mp hc
    rw [release_state] at hstate
    split at hstate
    · cases hstate
    · exact hs.holds hpowered x hx d hd j ends hstate
  case refine_6 =>
    obtain ⟨hnodup, htrue, hstands⟩ := (entriesInLaw_iff hs.distinct).mp hs.entries p
    refine ⟨hnodup, fun e he => ?_, fun hpowered n i c hc hholder => ?_⟩
    · obtain ⟨hextensions, c, hc, hstate⟩ := htrue e he
      refine ⟨hextensions, _, by rw [copyAt_releaseHolds, hc]; rfl, ?_⟩
      rw [release_state, if_neg fun hheld => ?_]
      · exact hstate
      · obtain ⟨ends, hends⟩ := heldFor_iff.mp hheld
        rw [hends] at hstate
        cases hw : e.withdrawing <;> rw [hw] at hstate <;> cases hstate
    · rw [copyAt_releaseHolds] at hc
      obtain ⟨d, hd, rfl⟩ := Option.map_eq_some_iff.mp hc
      rw [(release_facts k d).2.2.2.1] at hholder
      exact hstands hpowered n i d hd hholder

/-- No copy is held for a port. -/
def State.holdsNothingFor (s : State) (k : Port) : Prop := ∀ m ∈ s.store, ∀ c ∈ m.copies, c.heldFor k = false

theorem releaseHolds_holdsNothing (s : State) (k : Port) : (s.releaseHolds k).holdsNothingFor k := by
  intro m hm c hc
  obtain ⟨x, -, rfl⟩ := mem_releaseHolds hm
  obtain ⟨d, -, rfl⟩ := List.mem_map.mp hc
  split
  · rfl
  next h => exact Bool.eq_false_iff.mpr h

/-! ### Channels changed -/

theorem State.Lawful.asks {s : State} (hs : s.Lawful) : s.asksKnown := (bookInLaw_iff.mp hs.book).2.2.2.1

/-- One channel's state or mode changed: its ask still names an entry in use, and a copy is held for it only while copies may be. -/
theorem rechannelled_lawful {s t : State} {k : Port} (hs : s.Lawful) (hsame : t = { s with channels := t.channels, admin := t.admin })
    (hother : ∀ q, q ≠ k → (t.channels.get q).state = (s.channels.get q).state ∧ t.admin.get q = s.admin.get q)
    (hask : ∀ n f, s.isChannel k = true → (t.channels.get k).state = .asking n (some f) → (s.station f).isSome = true)
    (hhold : (s.mayHold k = true → t.mayHold k = true) ∨ s.holdsNothingFor k) : t.Lawful := by
  have hroles : t.roles = s.roles := by rw [hsame]
  have hmayHold {q : Port} (hq : q ≠ k) : t.mayHold q = s.mayHold q := by
    obtain ⟨hstate, hadmin⟩ := hother q hq
    have hchannel : t.isChannel q = s.isChannel q := by rw [State.isChannel, hroles, State.isChannel]
    rw [State.mayHold, State.mayHold, hchannel, hstate, hadmin]
  have hasks : t.asksKnown := by
    intro p n f hchannel hstate
    have hstation : t.station f = s.station f := by rw [hsame]; rfl
    rw [hstation]
    rw [State.isChannel, hroles, ← State.isChannel] at hchannel
    by_cases hp : p = k
    · subst hp; exact hask n f hchannel hstate
    · rw [(hother p hp).1] at hstate
      exact hs.asks p n f hchannel hstate
  have hholds : t.holdsInLaw := by
    intro hpowered m hm c hc q ends hstate
    have hpower : t.powered = s.powered := by rw [hsame]; rfl
    have hstore : t.store = s.store := by rw [hsame]
    rw [hstore] at hm
    have hbefore := hs.holds (hpower ▸ hpowered) m hm c hc q ends hstate
    by_cases hq : q = k
    · subst hq
      rcases hhold with hkeep | hnothing
      · exact hkeep hbefore
      · exact absurd (heldFor_iff.mpr ⟨ends, hstate⟩) (by rw [hnothing m hm c hc]; exact Bool.false_ne_true)
    · rw [hmayHold hq]; exact hbefore
  rw [hsame] at hasks hholds ⊢
  obtain ⟨hlength, hown, hstations, -, hcounts⟩ := bookInLaw_iff.mp hs.book
  exact ⟨⟨hs.numbers, hs.keys, hs.messages, hs.blocks, hs.lodges, bookInLaw_iff.mpr ⟨hlength, hown, hstations, hasks, hcounts⟩, hs.attempts,
    hholds⟩, hs.entries⟩

section
variable {s : State} (hs : s.Lawful)
include hs

/-- A channel put into a state in which copies may be held for it, if they may be before. -/
theorem setChannel_lawful {k : Port} {x : Channel}
    (hask : ∀ n f, s.isChannel k = true → x.state = .asking n (some f) → (s.station f).isSome = true)
    (hhold : (s.channels.get k).state = .ready ∨ (∃ n f, (s.channels.get k).state = .asking n f) →
      x.state = .ready ∨ ∃ n f, x.state = .asking n f) : { s with channels := s.channels.set k x }.Lawful := by
  have hget : (s.channels.set k x).get k = x := PerPort.get_set_self ..
  refine rechannelled_lawful (k := k) hs rfl (fun q hq => ⟨congrArg Channel.state (PerPort.get_set_ne _ _ hq), rfl⟩) (fun n f hchannel h => ?_)
    (.inl fun h => ?_)
  · exact hask n f hchannel (by rw [← hget]; exact h)
  · obtain ⟨hrole, hstate, hadmin⟩ := mayHold_iff.mp h
    refine mayHold_iff.mpr ⟨hrole, ?_, hadmin⟩
    dsimp only
    rw [hget]
    exact hhold hstate

/-- A channel closed or lapsed, with the holds for it ended. -/
theorem shutChannel_lawful {k : Port} {x : Channel} (hshut : ∀ n f, x.state ≠ .asking n f) :
    ({ s with channels := s.channels.set k x }.releaseHolds k).Lawful := by
  have hget : (s.channels.set k x).get k = x := PerPort.get_set_self ..
  refine rechannelled_lawful (s := s.releaseHolds k) (k := k) (releaseHolds_lawful hs k) rfl
    (fun q hq => ⟨congrArg Channel.state (PerPort.get_set_ne _ _ hq), rfl⟩) (fun n f _ h => absurd ?_ (hshut n (some f)))
    (.inr (releaseHolds_holdsNothing s k))
  rw [← hget]; exact h

theorem setAdmin_released_lawful (k : Port) (m : AdminMode) : ({ s with admin := s.admin.set k m }.releaseHolds k).Lawful := by
  refine rechannelled_lawful (s := s.releaseHolds k) (k := k) (releaseHolds_lawful hs k) rfl
    (fun q hq => ⟨rfl, PerPort.get_set_ne _ _ hq⟩) (fun n f hchannel h => hs.asks k n f hchannel h)
    (.inr (releaseHolds_holdsNothing s k))

end

end Sys2Proof.Machine
end

section
/-! PROOF. The requests and events that change copies, channels and lists, act by act, keep the law of the whole store. -/
namespace Sys2Proof.Machine

/-! ### Modes and channels -/

section
variable {s : State} (hs : s.Lawful)
include hs

theorem enterMode_lawful (k : Port) (m : AdminMode) : (s.enterMode k m).Lawful := by
  have hget (x : AdminMode) : (s.admin.set k x).get k = x := PerPort.get_set_self ..
  have hfree {x : AdminMode} (hx : x = .none_ ∨ x = .step) : { s with admin := s.admin.set k x }.Lawful := by
    refine rechannelled_lawful (k := k) hs rfl (fun q hq => ⟨rfl, PerPort.get_set_ne _ _ hq⟩) (fun n f hchannel h => hs.asks k n f hchannel h)
      (.inl fun h => ?_)
    obtain ⟨hrole, hstate, -⟩ := mayHold_iff.mp h
    refine mayHold_iff.mpr ⟨hrole, hstate, ?_⟩
    dsimp only
    rw [hget]
    exact hx
  unfold State.enterMode
  cases m with
  | none_ => exact hfree (.inl rfl)
  | step => exact hfree (.inr rfl)
  | hold => exact setAdmin_released_lawful hs k .hold
  | bar =>
    dsimp only
    split
    · have hready := setChannel_lawful hs (k := k) (x := { s.channels.get k with state := .ready }) nofun fun _ => .inl rfl
      exact setAdmin_released_lawful hready k .bar
    · exact setAdmin_released_lawful hs k .bar

theorem setLapseCount_lawful (p : Port) (count : Nat) : (s.updChannel p fun c => { c with lapseCount := count }).Lawful :=
  setChannel_lawful hs (k := p) (x := { s.channels.get p with lapseCount := count }) (hs.asks p) id

/-- The account that a report gives: the lapse count goes, and a channel under STEP passes to HOLD (R128, R137). -/
theorem accountGiven_lawful (p : Port) : (s.accountGiven p).Lawful := by
  unfold State.accountGiven
  split
  · dsimp only
    have hcount := setLapseCount_lawful hs p 0
    split
    · exact setAdmin_released_lawful hcount p .hold
    · exact hcount
  · exact hs

/-! ### Entries -/

/-- An entry of a copy that its port does not hold is none, and dropping it does nothing. -/
theorem dropEntry_eq {p : Port} {n i : Nat} (h : ∀ c, s.copyAt n i = some c → c.holder ≠ some p) : s.dropEntry p n i = s := by
  have hlist : ((s.lists.get p).filter fun e => !e.names n i) = s.lists.get p := by
    refine List.filter_eq_self.mpr fun e he => ?_
    rw [Bool.not_eq_true', ← Bool.not_eq_true, names_iff]
    rintro ⟨hn, hi⟩
    obtain ⟨-, c, hc, -⟩ := (hs.entries p).2.1 e he
    rw [hn, hi] at hc
    exact h c hc (holder_of_entry hs.entries hc he hn hi).2
  have hlists : s.lists.set p (s.lists.get p) = s.lists := PerPort.ext_get fun q => by
    rw [PerPort.get_set]
    split
    next hq => rw [hq]
    next => rfl
  rw [State.dropEntry, hlist, hlists]

/-- The copy of an entry found, and its message. -/
theorem copy_of_entryOf {p : Port} {n i : Nat} {e : Entry} (h : s.entryOf p n i = some e) : ∃ m c, s.findMsg n = some m
    ∧ m.copies[i]? = some c ∧ m.isOpen = false ∧ c.holder = some p
    ∧ c.state = some (if e.withdrawing then .withdrawing p else .taken p) := by
  have hmem := List.mem_of_find?_eq_some h
  obtain ⟨hn, hi⟩ := names_iff.mp (List.find?_some h)
  obtain ⟨-, c, hc, hstate⟩ := (hs.entries p).2.1 e hmem
  rw [hn, hi] at hc
  obtain ⟨m, hm, hget⟩ := Option.bind_eq_some_iff.mp hc
  have hfiled := isOpen_of_state (hs.messages m (findMsg_mem hm)) (List.mem_of_getElem? hget) (by rw [hstate]; exact nofun)
  exact ⟨m, c, hm, hget, hfiled, (holder_of_entry hs.entries hc hmem hn hi).2, hstate⟩

/-- An entry extended (R130). -/
theorem extend_lawful {p : Port} {n i deadline : Nat} {e : Entry} (h : s.entryOf p n i = some e) (hbelow : e.extensions < 2) :
    (s.updEntry p n i fun x => { x with deadline := deadline, extensions := x.extensions + 1 }).Lawful := by
  refine ⟨⟨hs.numbers, hs.keys, hs.messages, hs.blocks, hs.lodges, hs.book, hs.attempts, hs.holds⟩, fun q => ?_⟩
  obtain ⟨hnodup, htrue, hstands⟩ := hs.entries q
  have hmem := List.mem_of_find?_eq_some h
  obtain ⟨hn, hi⟩ := names_iff.mp (List.find?_some h)
  by_cases hq : q = p
  · subst hq
    have hlist : (s.updEntry q n i fun x => { x with deadline := deadline, extensions := x.extensions + 1 }).lists.get q
        = (s.lists.get q).map fun x => if x.names n i then { x with deadline := deadline, extensions := x.extensions + 1 } else x :=
      PerPort.get_set_self ..
    have hsame (x : Entry) : ∃ y, (if x.names n i then { x with deadline := deadline, extensions := x.extensions + 1 } else x) = y
        ∧ y.number = x.number ∧ y.index = x.index ∧ y.withdrawing = x.withdrawing
        ∧ (y.extensions = x.extensions ∨ x.names n i = true ∧ y.extensions = x.extensions + 1) := by
      by_cases hx : x.names n i = true
      · exact ⟨_, if_pos hx, rfl, rfl, rfl, .inr ⟨hx, rfl⟩⟩
      · exact ⟨_, if_neg hx, rfl, rfl, rfl, .inl rfl⟩
    rw [hlist]
    refine ⟨?_, fun y hy => ?_, fun hpowered m hm j c hc hholder => ?_⟩
    · rw [List.map_map]
      refine (List.map_congr_left fun x _ => ?_) ▸ hnodup
      obtain ⟨y, hy, hnumber, hindex, -⟩ := hsame x
      rw [Function.comp_apply, hy, hnumber, hindex]
    · obtain ⟨x, hx, rfl⟩ := List.mem_map.mp hy
      obtain ⟨y, hy, hnumber, hindex, hmark, hextensions⟩ := hsame x
      obtain ⟨hle, c, hc, hstate⟩ := htrue x hx
      rw [hy, hnumber, hindex, hmark]
      refine ⟨?_, c, hc, hstate⟩
      rcases hextensions with hext | ⟨hnames, hext⟩
      · omega
      · obtain ⟨hxn, hxi⟩ := names_iff.mp hnames
        have hxe : x = e := List.inj_on_of_nodup_map hnodup hx hmem (by rw [hxn, hxi, hn, hi])
        rw [hext, hxe]
        omega
    · obtain ⟨x, hx, hxn, hxi⟩ := hstands hpowered m hm j c hc hholder
      obtain ⟨y, hy, hnumber, hindex, -⟩ := hsame x
      exact ⟨_, List.mem_map_of_mem hx, by rw [hy, hnumber, hxn], by rw [hy, hindex, hxi]⟩
  · have hlist : (s.updEntry p n i fun x => { x with deadline := deadline, extensions := x.extensions + 1 }).lists.get q = s.lists.get q :=
      PerPort.get_set_ne _ _ hq
    rw [hlist]
    exact ⟨hnodup, htrue, hstands⟩

/-- A copy that waits handed over (R63, R109, R143). -/
theorem handOver_lawful {n i : Nat} {m : Message} {c : Copy} (hm : s.findMsg n = some m) (hc : m.copies[i]? = some c) (hidle : c.idle = true)
    (p : Port) (prec : Prec) : (s.handOver p n i prec).Lawful := by
  have hcopy := copyAt_of_found hm hc
  have hnone := holder_of_idle hidle
  have hfiled : m.isOpen = false := isOpen_of_state (hs.messages m (findMsg_mem hm)) (List.mem_of_getElem? hc) fun h => by
    simp [Copy.idle, h] at hidle
  have hallow : s.Allows m c (c.become (.taken p)) := (hs.allows_self hm hc hfiled).settled nofun rfl (hs.allows_self hm hc hfiled).attempts rfl
  have hsound := changeCopy_sound hm hc (f := fun c => c.become (.taken p)) hs.toSound hallow
  have hlists : (s.changeCopy n i fun c => c.become (.taken p)).lists = s.lists := by
    rw [changeCopy_lists hcopy, State.followHolder, hnone]
  have hnumbers : (s.handOver p n i prec).numbersInLaw := hsound.numbers
  refine ⟨⟨hnumbers, hsound.keys, hsound.messages, hsound.blocks, hsound.lodges, hsound.book, hsound.attempts, hsound.holds⟩,
    (entriesInLaw_iff hnumbers.distinct).mpr fun q => ?_⟩
  have hcopies (k j : Nat) : (s.handOver p n i prec).copyAt k j = if k = n ∧ j = i then some (c.become (.taken p)) else s.copyAt k j :=
    copyAt_changeCopy hcopy (fun c => c.become (.taken p)) k j
  obtain ⟨hnodup, htrue, hstands⟩ := (entriesInLaw_iff hs.distinct).mp hs.entries q
  have hpowered : (s.handOver p n i prec).powered = s.powered := by rw [State.handOver_frame]; rfl
  have hnew {e : Entry} (he : e ∈ s.lists.get q) : ¬ (e.number = n ∧ e.index = i) := fun ⟨hn, hi⟩ => by
    have hholder := (holder_of_entry hs.entries hcopy he hn hi).2
    rw [hnone] at hholder
    cases hholder
  have htold {e : Entry} (he : e ∈ s.lists.get q) : e.extensions ≤ 2 ∧ ∃ d, (s.handOver p n i prec).copyAt e.number e.index = some d
      ∧ d.state = some (if e.withdrawing then .withdrawing q else .taken q) := by
    rw [hcopies, if_neg (hnew he)]
    exact htrue e he
  have hlist : (s.handOver p n i prec).lists.get q = if q = p
      then s.lists.get q ++ [⟨n, i, later s.clock (s.handOff.times.get prec), 0, false⟩] else s.lists.get q := by
    rw [State.handOver, State.addEntry]
    dsimp only
    rw [hlists, PerPort.get_set]
    split
    next hq => rw [hq]
    next => rfl
  rw [hpowered, State.entriesTrue, hlist]
  refine ⟨?_, fun e he => ?_, fun hp k j d hd hholder => ?_⟩
  · split
    · rw [List.map_append, List.map_singleton, List.nodup_append]
      refine ⟨hnodup, List.nodup_singleton _, fun x hx y hy hxy => ?_⟩
      obtain ⟨e, he, rfl⟩ := List.mem_map.mp hx
      rw [List.mem_singleton.mp hy] at hxy
      exact hnew he ⟨congrArg Prod.fst hxy, congrArg Prod.snd hxy⟩
    · exact hnodup
  · split at he
    next hq =>
      rcases List.mem_append.mp he with he | he
      · exact htold he
      · rw [List.mem_singleton.mp he]
        exact ⟨Nat.zero_le _, _, by rw [hcopies, if_pos ⟨rfl, rfl⟩], by rw [hq]; rfl⟩
    next => exact htold he
  · rw [hcopies] at hd
    rw [State.entryStands, hlist]
    split at hd
    next hkj =>
      cases hd
      have hq : q = p := (Option.some.inj hholder).symm
      rw [if_pos hq]
      exact ⟨_, List.mem_append_right _ (List.mem_singleton.mpr rfl), hkj.1.symm, hkj.2.symm⟩
    next =>
      obtain ⟨e, he, hek, hej⟩ := hstands hp k j d hd hholder
      refine ⟨e, ?_, hek, hej⟩
      split
      · exact List.mem_append_left _ he
      · exact he

end

end Sys2Proof.Machine
end

section
/-! PROOF. The requests on copies, reports, expiries, lapses and grants keep the law of the whole store (R69, R71, R75 to R84, R109, R130 to R138,
R143). -/
namespace Sys2Proof.Machine

section
variable {s : State}

/-- A change that the law allows of every copy is allowed at a filed message. -/
theorem allowsAt_of_filed {n : Nat} {m : Message} {f : Copy → Copy} (hm : s.findMsg n = some m) (hfiled : m.isOpen = false)
    (h : ∀ c, s.Allows m c c → s.Allows m c (f c) ∧ c.mayFollow (f c)) : s.allowsAt n f := fun m' c hm' => by
  obtain rfl : m = m' := Option.some.inj (hm.symm.trans hm')
  exact ⟨hfiled, h c⟩

/-- The loss of a copy's holder is allowed at a filed message. -/
theorem lostBy_allowsAt {n i : Nat} {m : Message} (hm : s.findMsg n = some m) (hfiled : m.isOpen = false) : s.allowsAt n (s.lostBy n i) :=
  allowsAt_of_filed hm hfiled fun c hself => by
    rw [lostBy_of_findMsg hm]
    exact allows_lost hself

theorem clamp_mem (n : Nat) : 1 ≤ clamp 1 15 n ∧ clamp 1 15 n ≤ 15 := by
  unfold clamp
  omega

/-- The messages after an account given, with the phases and precedences they had. -/
theorem findMsg_accountGiven {p : Port} {n : Nat} {m : Message} (hm : s.findMsg n = some m) :
    ∃ m', (s.accountGiven p).findMsg n = some m' ∧ m'.isOpen = m.isOpen ∧ m'.prec = m.prec := by
  unfold State.accountGiven
  split
  · dsimp only
    split
    · refine ⟨m.release p, ?_, rfl, rfl⟩
      refine (findMsg_releaseHolds (s.updChannel p fun c => { c with lapseCount := 0 }) p n).trans ?_
      exact congrArg (Option.map (Message.release p)) hm
    · exact ⟨m, hm, rfl, rfl⟩
  · exact ⟨m, hm, rfl, rfl⟩

theorem allowsAt_ownAfter {p : Port} {n : Nat} {m m' : Message} (o : ReportOutcome) (relay : Call) (withdrawing : Bool)
    (hm : s.findMsg n = some m) (hfiled : m.isOpen = false) (hprec : m.prec = m'.prec) :
    s.allowsAt n (s.ownAfter p m' o relay withdrawing) := by
  have htaken : s.takenAfter p m' o relay = s.takenAfter p m o relay := by
    funext c; unfold State.takenAfter; rw [hprec]
  refine allowsAt_of_filed hm hfiled fun c hself => ?_
  unfold State.ownAfter
  split
  · exact allows_withdrawnAfter hself p o
  · rw [htaken]
    exact allows_takenAfter hself p o relay

variable (hs : s.Lawful)
include hs

/-! ### The console's requests -/

theorem cancelOne_lawful {n i : Nat} {m : Message} {c : Copy} (hm : s.findMsg n = some m) (hc : m.copies[i]? = some c)
    (hcancellable : c.cancellable = true) : (s.cancelCopy n i).Lawful := by
  have hstate : c.state ≠ none := fun h => by simp [Copy.cancellable, h] at hcancellable
  have hfiled := isOpen_of_state (hs.messages m (findMsg_mem hm)) (List.mem_of_getElem? hc) hstate
  have hcore : (s.cancelCopy n i).core = (s.changeCopy n i Copy.cancel).core := by rw [cancelCopy_frame]; rfl
  exact (changeCopy_lawful_of_allowsAt hs (allowsAt_of_filed hm hfiled fun _ => allows_cancel)).of_core hcore

theorem cancelAll_lawful {n : Nat} {m : Message} (hm : s.findMsg n = some m) (hfiled : m.isOpen = false) :
    (m.indices.foldl (fun t i => t.cancelCopy n i) s).Lawful := by
  obtain rfl := findMsg_number hm
  rw [cancelAll_eq hm]
  have hcore : (s.cancelEach m.allRefs).core = (s.changeEach m.allRefs fun _ _ => Copy.cancel).core := by rw [cancelEach_frame]; rfl
  refine State.Lawful.of_core (changeEach_lawful hs fun r hr => ?_).1 hcore
  rw [(mem_allRefs.mp hr).1]
  exact allowsAt_of_filed hm hfiled fun _ => allows_cancel

theorem pin_lawful {n i : Nat} {k : Option Port} {m : Message} {c : Copy} (hm : s.findMsg n = some m) (hc : m.copies[i]? = some c)
    (hpinnable : c.pinnable = true) : (s.changeCopy n i (Copy.pinTo k)).Lawful := by
  have hstate : c.state ≠ none := fun h => by simp [Copy.pinnable, h] at hpinnable
  have hfiled := isOpen_of_state (hs.messages m (findMsg_mem hm)) (List.mem_of_getElem? hc) hstate
  exact changeCopy_lawful_of_allowsAt hs (allowsAt_of_filed hm hfiled fun _ hself => allows_pinTo hself k)

theorem requeue_lawful {n : Nat} {m : Message} (hm : s.findMsg n = some m) (hfiled : m.isOpen = false) (l : List (Copy × Nat)) :
    (l.foldl (fun t ci => t.changeCopy n ci.2 (s.requeued m.prec)) s).Lawful := by
  have heach : l.foldl (fun t ci => t.changeCopy n ci.2 (s.requeued m.prec)) s
      = s.changeEach (l.map fun ci => (n, ci.2)) fun _ _ => s.requeued m.prec := by rw [State.changeEach, List.foldl_map]
  rw [heach]
  refine (changeEach_lawful hs fun r hr => ?_).1
  obtain ⟨ci, -, rfl⟩ := List.mem_map.mp hr
  exact allowsAt_of_filed hm hfiled fun _ hself => allows_requeued hself (hs.attempts.1 m.prec).1

theorem endHold_lawful (n i : Nat) : (s.endHold n i).Lawful := by
  unfold State.endHold
  split
  next k ends hstate =>
    split
    · refine changeCopy_lawful hs fun m c hm hc => ?_
      rw [copyAt_of_found hm hc] at hstate
      have hheld : c.state = some (.heldFor k ends) := hstate
      have hfiled := isOpen_of_state (hs.messages m (findMsg_mem hm)) (List.mem_of_getElem? hc) (by rw [hheld]; exact nofun)
      exact allows_released (hs.allows_self hm hc hfiled) (idle_of_heldFor hheld)
    · exact hs
  next => exact hs

/-! ### Lowered limits -/

/-- Other attempt limits, which every copy that waits is below. -/
theorem relimited_lawful {t : State} (h : { t with handOff := s.handOff }.core = s.core) (hlimits : ∀ prec, 1 ≤ t.limit prec ∧ t.limit prec ≤ 15)
    (hbelow : ∀ m ∈ t.store, ∀ c ∈ m.copies, c.idle = true → c.attempts < t.limit m.prec) : t.Lawful := by
  obtain ⟨⟨hnumbers, hkeys, hmessages, hblocks, hlodges, hbook, hattempts, hholds⟩, hentries⟩ := hs.of_core h
  exact ⟨⟨hnumbers, hkeys, hmessages, hblocks, hlodges, hbook, ⟨hlimits, fun m hm c hc => ⟨(hattempts.2 m hm c hc).1, hbelow m hm c hc⟩⟩,
    hholds⟩, hentries⟩

theorem limitsLowered_lawful {h : HandOffSettings} (hlimits : ∀ prec, 1 ≤ h.limits.get prec ∧ h.limits.get prec ≤ 15) :
    (s.limitsLowered h).Lawful := by
  obtain ⟨hfailed, hrules⟩ := changeEach_lawful hs (refs := s.limitRefs h) (g := failing) fun r hr => by
    obtain ⟨c, hc, hidle⟩ := idle_of_mem_limitRefs hs.distinct hr
    obtain ⟨m, hm, hget⟩ := Option.bind_eq_some_iff.mp hc
    have hfiled := isOpen_of_state (hs.messages m (findMsg_mem hm)) (List.mem_of_getElem? hget) fun h => by simp [Copy.idle, h] at hidle
    exact allowsAt_of_filed hm hfiled fun _ => allows_failed
  obtain ⟨hstore, hbook⟩ := changeEach_congr (s := s) (t := { s with handOff := h }) (refs := s.limitRefs h) (g := failing) rfl rfl rfl
  have hstore' : (s.limitsLowered h).store = (s.changeEach (s.limitRefs h) failing).store := hstore
  have hlists : (s.changeEach (s.limitRefs h) failing).lists = s.lists := by
    refine PerPort.ext_get fun q => lists_changeEach failing_settles fun r hr c hc => ?_
    obtain ⟨d, hd, hidle⟩ := idle_of_mem_limitRefs hs.distinct hr
    rw [Option.some.inj (hc.symm.trans hd), holder_of_idle hidle]
    exact ⟨nofun, nofun⟩
  have hlimit (prec : Prec) : (s.limitsLowered h).limit prec = h.limits.get prec := by
    rw [State.limit, limitsLowered_frame hs.distinct]
  have hcore : { s.limitsLowered h with handOff := (s.changeEach (s.limitRefs h) failing).handOff }.core
      = (s.changeEach (s.limitRefs h) failing).core := by
    have hframe := changeEach_frame s (s.limitRefs h) failing
    rw [hlists] at hframe
    rw [hframe]
    have hlowered := limitsLowered_frame (h := h) hs.distinct
    have hbook' : (s.limitsLowered h).book = (s.changeEach (s.limitRefs h) failing).book := hbook
    rw [hstore', hbook'] at hlowered
    rw [hlowered]
    rfl
  refine relimited_lawful hfailed hcore (fun prec => by rw [hlimit]; exact hlimits prec) fun m hm c hc hidle => ?_
  rw [hlimit]
  rw [hstore'] at hm
  obtain ⟨j, hj⟩ := List.mem_iff_getElem?.mp hc
  have hcopy := (copyAt_eq_some_iff hfailed.distinct).mpr ⟨m, hm, rfl, hj⟩
  rw [copyAt_changeEach failing_settles] at hcopy
  obtain ⟨d, hd, hdc⟩ := Option.map_eq_some_iff.mp hcopy
  split at hdc
  · rw [← hdc] at hidle
    cases hidle
  next hnot =>
    subst hdc
    obtain ⟨x, hx, hxj⟩ := Option.bind_eq_some_iff.mp hd
    have hprec : x.prec = m.prec := by
      have hmessages := hrules.messages m.number
      rw [findMsg_of_mem hfailed.distinct hm, hx] at hmessages
      exact (congrArg Prod.snd (Option.some.inj hmessages)).symm
    have hlisted := mem_refsWhere_of_getElem? (ok := fun m c => limitFails s.handOff.limits h.limits m.prec c) hs.distinct (findMsg_mem hx) hxj
    have hkept : limitFails s.handOff.limits h.limits x.prec d = false :=
      Bool.eq_false_iff.mpr fun hfails => hnot (findMsg_number hx ▸ hlisted.mpr hfails)
    have hbefore := (hs.attempts.2 x (findMsg_mem hx) d (List.mem_of_getElem? hxj)).2 hidle
    rw [State.limit] at hbefore
    rw [← hprec]
    simp only [limitFails, hidle, Bool.true_and, Bool.and_eq_false_iff, decide_eq_false_iff_not] at hkept
    omega

/-! ### Reports -/

theorem lateReport_lawful {p : Port} {n i : Nat} {m : Message} {c : Copy} {o : ReportOutcome} {relay : Call} (hm : s.findMsg n = some m)
    (hfiled : m.isOpen = false) : (s.lateReport p n i c o relay).Lawful := by
  have hchanged : (s.changeCopy n i (s.lateAfter p o relay)).Lawful :=
    changeCopy_lawful_of_allowsAt hs (allowsAt_of_filed hm hfiled fun _ hself => allows_lateAfter hself p o relay)
  refine hchanged.of_core ?_
  unfold State.lateReport
  dsimp only
  rw [updCounters_core, bookOutcome_core]
  split <;> rfl

theorem ownReport_lawful {p : Port} {n i : Nat} {m : Message} {c : Copy} {e : Entry} {o : ReportOutcome} {relay : Call}
    (hm : s.findMsg n = some m) (hfiled : m.isOpen = false) : (s.ownReport p n i m c e o relay).Lawful := by
  have haccount := accountGiven_lawful hs p
  obtain ⟨m', hm', hopen, hprec⟩ := findMsg_accountGiven (p := p) hm
  generalize ht : s.accountGiven p = t at haccount hm'
  have hchanged : (t.changeCopy n i (t.ownAfter p m o relay e.withdrawing)).Lawful :=
    changeCopy_lawful_of_allowsAt haccount (allowsAt_ownAfter o relay e.withdrawing hm' (hopen.trans hfiled) hprec)
  have hdrop := dropEntry_eq (p := p) (n := n) (i := i) hchanged fun d hd => by
    cases hcopy : t.copyAt n i with
    | none => rw [State.changeCopy_none hcopy, hcopy] at hd; cases hd
    | some x =>
      rw [copyAt_changeCopy hcopy, if_pos ⟨rfl, rfl⟩] at hd
      cases hd
      rw [ownAfter_holder]
      exact nofun
  refine hchanged.of_core ?_
  have hafter : (if e.withdrawing then t.withdrawnAfter p o else t.takenAfter p m o relay) = t.ownAfter p m o relay e.withdrawing := by
    funext d; unfold State.ownAfter; split <;> rfl
  unfold State.ownReport
  dsimp only
  rw [ht, hafter, hdrop]
  split
  · rw [localBack_core, updCounters_core, bookOutcome_core]
  · rw [updCounters_core, bookOutcome_core]

/-! ### Expiries and lapses -/

theorem expired_lawful {p : Port} {n i : Nat} {e : Entry} (h : s.entryOf p n i = some e) : (s.expired p n i).Lawful := by
  obtain ⟨m, c, hm, hc, hfiled, -, -⟩ := copy_of_entryOf hs h
  have hlost : (s.changeCopy n i (s.lostBy n i)).Lawful := changeCopy_lawful_of_allowsAt hs (lostBy_allowsAt hm hfiled)
  have hdrop := dropEntry_eq (p := p) (n := n) (i := i) hlost fun d hd => by
    rw [copyAt_changeCopy (copyAt_of_found hm hc), if_pos ⟨rfl, rfl⟩] at hd
    cases hd
    rw [show (s.lostBy n i c).holder = none from lost_holder ..]
    exact nofun
  refine hlost.of_core ?_
  rw [State.expired, localBack_core, updCounters_core, loseCopy_eq_changeCopy, hdrop]
  rfl

theorem lapse_lawful (hpowered : s.powered = true) (p : Port) : (s.lapse p).Lawful := by
  have hfiled {r : Nat × Nat} (hr : r ∈ (s.lists.get p).map Entry.ref) : ∃ m, s.findMsg r.1 = some m ∧ m.isOpen = false := by
    obtain ⟨e, he, rfl⟩ := List.mem_map.mp hr
    obtain ⟨-, c, hc, hstate⟩ := (hs.entries p).2.1 e he
    obtain ⟨m, hm, hget⟩ := Option.bind_eq_some_iff.mp hc
    exact ⟨m, hm, isOpen_of_state (hs.messages m (findMsg_mem hm)) (List.mem_of_getElem? hget) (by rw [hstate]; exact nofun)⟩
  obtain ⟨hlost, -⟩ := changeEach_lawful hs (refs := (s.lists.get p).map Entry.ref) (g := s.lostBy) fun r hr => by
    obtain ⟨m, hm, hopen⟩ := hfiled hr
    exact lostBy_allowsAt hm hopen
  have hfold : (s.lists.get p).foldl (fun u e => u.loseCopy e.number e.index) (s.updChannel p fun c => { c with state := .lapsed })
      = { s.changeEach ((s.lists.get p).map Entry.ref) s.lostBy with
          channels := s.channels.set p { s.channels.get p with state := .lapsed } } := by
    rw [loseEach_eq]
    exact changeEach_channels_free s _ _ s.lostBy
  have hchannels : (s.changeEach ((s.lists.get p).map Entry.ref) s.lostBy).channels = s.channels := by rw [changeEach_frame]
  -- every entry of the list was that of a copy now lost, and none is left
  have hempty : (s.changeEach ((s.lists.get p).map Entry.ref) s.lostBy).lists.get p = [] := by
    refine List.eq_nil_iff_forall_not_mem.mpr fun e he => ?_
    obtain ⟨-, c, hc, -⟩ := (hlost.entries p).2.1 e he
    have hholder := (holder_of_entry hlost.entries hc he rfl rfl).2
    rw [copyAt_changeEach (lostBy_settles s)] at hc
    obtain ⟨d, hd, rfl⟩ := Option.map_eq_some_iff.mp hc
    split at hholder
    · rw [show (s.lostBy _ _ d).holder = none from lost_holder ..] at hholder
      cases hholder
    next hnot =>
      obtain ⟨x, hx, hn, hi⟩ := ((entriesInLaw_iff hs.distinct).mp hs.entries p).2.2 hpowered _ _ d hd hholder
      exact hnot (List.mem_map.mpr ⟨x, hx, by rw [Entry.ref, hn, hi]⟩)
  have hshut := shutChannel_lawful hlost (k := p) (x := { s.channels.get p with state := .lapsed }) nofun
  refine hshut.of_core ?_
  rw [State.lapse]
  refine (raiseWhere_core ..).trans ((updCounters_core ..).trans ?_)
  have hlists : (s.changeEach ((s.lists.get p).map Entry.ref) s.lostBy).lists.set p []
      = (s.changeEach ((s.lists.get p).map Entry.ref) s.lostBy).lists := PerPort.ext_get fun q => by
    rw [PerPort.get_set]
    split
    next hq => rw [hq, hempty]
    next => rfl
  have hupd : (s.updChannel p fun c => { c with state := .lapsed }).lists.get p = s.lists.get p := rfl
  dsimp only
  rw [hupd, hfold, hchannels]
  dsimp only
  rw [hlists]

theorem countLapse_lawful (hpowered : s.powered = true) (p : Port) : (s.countLapse p).Lawful := by
  unfold State.countLapse
  split
  · dsimp only
    have hcount := setLapseCount_lawful hs p (min 7 ((s.channels.get p).lapseCount + 1))
    split
    · exact lapse_lawful hcount hpowered p
    · exact hcount
  · exact hs

theorem expireEntry_lawful (hservice : s.inService = true) (p : Port) (n i : Nat) : (s.expireEntry p n i).Lawful := by
  cases he : s.entryOf p n i with
  | none => rw [expireEntry_none he]; exact hs
  | some e =>
    by_cases hdue : e.deadline ≤ s.clock
    · rw [expireEntry_due he hdue]
      refine countLapse_lawful (expired_lawful hs he) ?_ p
      rw [expired_frame]
      have hrunning : s.power = .running := beq_iff_eq.mp hservice
      rw [State.powered, hrunning]
      rfl
    · rw [expireEntry_early he (Nat.not_le.mp hdue)]; exact hs

/-! ### Grants -/

theorem takeLocal_lawful {p : Port} {x : Cand} (h : s.best p s.localCands = some x) :
    (s.handOver p x.msg.number x.index x.msg.prec).Lawful := by
  obtain ⟨hmem, hcopy, -, -, hstate⟩ := mem_localCands.mp (Sys2Proof.Ranking.best_least h).1
  exact handOver_lawful hs (findMsg_of_mem hs.distinct hmem) hcopy (idle_iff.mpr (.inl hstate)) p x.msg.prec

theorem granted_lawful {c : Choice} (h : s.choose = some c) : (s.granted c).Lawful := by
  obtain ⟨hm, hcopy, -, hidle, -, -⟩ := facts_of_choose hs.distinct h
  obtain ⟨hchannel, ⟨count, filter, hask, hcount⟩, -⟩ := Sys2Proof.Pairing.openToGrants_iff.mp (openToGrants_of_choose h)
  have hgranted : s.granted c = (((s.handOver c.port c.cand.msg.number c.cand.index c.cand.msg.prec).updChannel c.port fun x =>
      { x with state := lowerAsk x.state }).moveRotation c).raiseAt .granted c.port := rfl
  rw [hgranted]
  have hhanded := handOver_lawful hs hm hcopy hidle c.port c.cand.msg.prec
  have hchannels : (s.handOver c.port c.cand.msg.number c.cand.index c.cand.msg.prec).channels = s.channels := by rw [State.handOver_frame]
  generalize s.handOver c.port c.cand.msg.number c.cand.index c.cand.msg.prec = u at hhanded hchannels
  have hstate : (u.channels.get c.port).state = .asking count filter := by rw [hchannels]; exact hask
  have hlower : lowerAsk (u.channels.get c.port).state = .ready
      ∨ lowerAsk (u.channels.get c.port).state = .asking (count - 1) filter := by
    rw [hstate, lowerAsk_asking hcount]
    split <;> simp
  have hlowered : (u.updChannel c.port fun x => { x with state := lowerAsk x.state }).Lawful := by
    refine setChannel_lawful hhanded (k := c.port) (x := { u.channels.get c.port with state := lowerAsk (u.channels.get c.port).state })
      (fun n f hc hn => ?_) fun _ => hlower.imp_right fun h => ⟨_, _, h⟩
    have hn : lowerAsk (u.channels.get c.port).state = .asking n (some f) := hn
    rcases hlower with h | h
    · rw [h] at hn; cases hn
    · rw [h] at hn
      cases hn
      exact hhanded.asks c.port count f hc hstate
  refine hlowered.of_core ?_
  have hrotation (t : State) : (t.moveRotation c).core = t.core := by unfold State.moveRotation; split <;> rfl
  exact (raiseWhere_core ..).trans (hrotation _)

theorem takeGrant_lawful : s.takeGrant.Lawful := by
  unfold State.takeGrant
  split
  next c h => exact (granted_lawful hs h).of_core rfl
  next => exact hs

end

end Sys2Proof.Machine
end

section
/-! PROOF. The requests on the Station Book keep the law of the whole store (R44, R48 to R57), and an ask that stands (R125). -/
namespace Sys2Proof.Machine

/-- No copy is addressed to an entry. -/
def State.unaddressed (s : State) (e : Nat) : Prop := ∀ m ∈ s.store, ∀ c ∈ m.copies, c.station ≠ e

theorem liveAt_unaddressed {s : State} {e : Nat} (h : s.unaddressed e) : s.liveAt e = 0 := by
  refine List.sum_eq_zero fun w hw => ?_
  obtain ⟨m, hm, rfl⟩ := List.mem_map.mp hw
  refine List.countP_eq_zero.mpr fun c hc => ?_
  rw [beq_false_of_ne (h m hm c hc), Bool.and_false]
  exact Bool.false_ne_true

theorem named_eq_false_iff {s : State} {e : Nat} : s.named e = false ↔ e ≠ 0 ∧ s.unaddressed e ∧ s.askNames e = false := by
  simp only [State.named, Bool.or_eq_false_iff, beq_eq_false_iff_ne, List.any_eq_false, Bool.not_eq_true, State.unaddressed, and_assoc]

section
variable {s : State} (hs : s.Lawful)
include hs

/-- A free entry is addressed by no copy. -/
theorem unaddressed_of_free {e : Nat} (h : s.station e = none) : s.unaddressed e := by
  rintro m hm c hc rfl
  have hsome := hs.book.2.2.1 m hm c hc
  rw [h] at hsome
  cases hsome

/-- An entry provided is in the book, is not entry 0, and is addressed by no copy. -/
theorem provided_facts {e : Nat} {recycled : Bool} {busy : List Nat} (h : provideEntry s.book s.named busy = some (e, recycled)) :
    e < s.book.length ∧ e ≠ 0 ∧ s.unaddressed e := by
  have hnamed : s.named 0 = true := by simp [State.named]
  refine ⟨provideEntry_lt h, provideEntry_pos hnamed h, ?_⟩
  rcases provideEntry_spec h with ⟨-, -, -, hfree⟩ | ⟨-, st, -, -, -, hno, -⟩
  · exact unaddressed_of_free hs (by rw [State.station, hfree]; rfl)
  · exact (named_eq_false_iff.mp hno).2.1

/-- The book with other entries where no copy is addressed, each in use and with a waiting count of 0. -/
theorem rebooked_lawful {book : List (Option Station)} (hlength : book.length = s.book.length)
    (h : ∀ e, ({ s with book := book }.station e).map Station.waiting = (s.station e).map Station.waiting
      ∨ s.unaddressed e ∧ { s with book := book }.waitingAt e = some 0) : { s with book := book }.Lawful := by
  obtain ⟨hbook, hown, hstations, hasks, hcounts⟩ := bookInLaw_iff.mp hs.book
  have hused {e : Nat} (he : (s.waitingAt e).isSome = true) : ({ s with book := book }.waitingAt e).isSome = true := by
    rcases h e with hsame | ⟨-, hzero⟩
    · rw [State.waitingAt, hsame]; exact he
    · rw [hzero]; rfl
  refine ⟨⟨hs.numbers, hs.keys, hs.messages, hs.blocks, hs.lodges, bookInLaw_iff.mpr ⟨hlength.trans hbook, hused hown,
    fun m hm c hc => hused (hstations m hm c hc), fun p n f hchannel hask => ?_, fun e w hw => ?_⟩, hs.attempts, hs.holds⟩, hs.entries⟩
  · rw [← isSome_waitingAt]
    exact hused (by rw [isSome_waitingAt]; exact hasks p n f hchannel hask)
  · rcases h e with hsame | ⟨hno, hzero⟩
    · rw [State.waitingAt, hsame] at hw
      exact hcounts e w hw
    · rw [hzero] at hw
      cases hw
      exact (liveAt_unaddressed hno).symm

theorem writeEntry_lawful {e : Nat} {st : Station} (he : e < s.book.length) (hno : s.unaddressed e) (hst : st.waiting = 0) (recycled : Bool) :
    (s.writeEntry e recycled st).Lawful := by
  have hwritten : { s with book := s.book.set e (some st) }.Lawful := by
    refine rebooked_lawful hs (List.length_set ..) fun d => ?_
    by_cases hd : d = e
    · subst hd
      refine .inr ⟨hno, ?_⟩
      rw [State.waitingAt, State.station]
      dsimp only
      rw [List.getElem?_set_self he, ← hst]
      rfl
    · refine .inl ?_
      rw [State.station]
      dsimp only
      rw [List.getElem?_set_ne (Ne.symm hd)]
      rfl
  rw [writeEntry_eq]
  exact hwritten.of_core rfl

theorem entryFor_lawful {t : State} {c : Call} {k : StationKind} {e : Nat} {made : Bool} (h : s.entryFor c k = some (t, e, made)) :
    t.Lawful := by
  unfold State.entryFor at h
  split at h
  · cases h; exact hs
  · split at h
    next e recycled hprovide =>
      cases h
      obtain ⟨hlt, -, hno⟩ := provided_facts hs hprovide
      exact writeEntry_lawful hs hlt hno rfl recycled
    · cases h

theorem removeStation_lawful {e : Nat} (h : s.named e = false) : { s.endStreak e with book := (s.endStreak e).book.set e none }.Lawful := by
  obtain ⟨hpos, hno, hasked⟩ := named_eq_false_iff.mp h
  obtain ⟨hbook, hown, hstations, hasks, hcounts⟩ := bookInLaw_iff.mp hs.book
  have hother {d : Nat} (hd : d ≠ e) : { s with book := s.book.set e none }.waitingAt d = s.waitingAt d := by
    rw [State.waitingAt, State.station]
    dsimp only
    rw [List.getElem?_set_ne (Ne.symm hd)]
    rfl
  have hfreed : { s with book := s.book.set e none }.waitingAt e = none := by
    rw [State.waitingAt, State.station]
    dsimp only
    by_cases he : e < s.book.length
    · rw [List.getElem?_set_self he]; rfl
    · rw [List.getElem?_eq_none (by rw [List.length_set]; exact Nat.not_lt.mp he)]; rfl
  have hremoved : { s with book := s.book.set e none }.Lawful := by
    refine ⟨⟨hs.numbers, hs.keys, hs.messages, hs.blocks, hs.lodges, bookInLaw_iff.mpr ⟨(List.length_set ..).trans hbook, ?_,
      fun m hm c hc => ?_, fun p n f hchannel hask => ?_, fun d w hw => ?_⟩, hs.attempts, hs.holds⟩, hs.entries⟩
    · rw [hother (Ne.symm hpos)]; exact hown
    · rw [hother (hno m hm c hc)]; exact hstations m hm c hc
    · have hf : f ≠ e := by
        rintro rfl
        have hnames : s.askNames f = true := List.any_eq_true.mpr ⟨p, Port.mem_all p, by
          have hchannel : s.isChannel p = true := hchannel
          have hask : (s.channels.get p).state = .asking n (some f) := hask
          rw [hchannel, hask]; simp⟩
        exact Bool.false_ne_true (hasked.symm.trans hnames)
      rw [← isSome_waitingAt, hother hf, isSome_waitingAt]
      exact hasks p n f hchannel hask
    · by_cases hd : d = e
      · rw [hd, hfreed] at hw; cases hw
      · rw [hother hd] at hw; exact hcounts d w hw
  rw [endStreak_eq]
  exact hremoved.of_core rfl

theorem decayGrade_lawful (e : Nat) (p : Port) : (s.decayGrade e p).Lawful := by
  unfold State.decayGrade
  split
  · exact hs
  · split
    · exact hs.of_core (updStation_core s e fun _ => rfl)
    · exact hs

/-- An ask that stands names an entry in use in its filter (R48, R125). -/
theorem askStands_lawful {p : Port} {n : Nat} {f : Option Nat}
    (hknown : ∀ e, f = some e → ∃ c, findCall s.book c = some e) : (s.setChan p (.asking n f)).Lawful := by
  refine setChannel_lawful hs (k := p) (x := { s.channels.get p with state := .asking n f }) (fun k e _ h => ?_) fun _ => .inr ⟨n, f, rfl⟩
  cases h
  obtain ⟨c, hc⟩ := hknown e rfl
  obtain ⟨⟨st, hst, -⟩, -⟩ := findCall_eq_some_iff.mp hc
  rw [station_eq_some_iff.mpr hst]
  rfl

end

end Sys2Proof.Machine
end

section
/-! PROOF. Messages that leave the store: the purge, the drop and the end of an open message keep the law of the whole store (R15, R36, R37, R40). -/
namespace Sys2Proof.Machine

/-- What the removal of a message leaves: the lists, the channels and the settings. -/
def State.handling (s : State) : PerPort (List Entry) × PerPort Channel × PerPort Role × PerPort AdminMode × HandOffSettings × Power :=
  (s.lists, s.channels, s.roles, s.admin, s.handOff, s.power)

/-- A message without a copy in a list removed, with its key and what its copies count. -/
structure State.without (t s : State) (m : Message) : Prop where
  mem : m ∈ s.store
  unheld : ∀ c ∈ m.copies, c.holder = none
  store : t.store = (s.removeMsg m.number).store
  table : t.dupTable = s.dupTable.erase m.key
  last : t.lastNumber = s.lastNumber
  length : t.book.length = s.book.length
  counts : ∀ e, t.waitingAt e = (s.waitingAt e).map fun w => w - m.liveFor e
  handling : t.handling = s.handling

section
variable {s t : State} {m : Message} (hs : s.Lawful) (h : t.without s m)
include h

theorem State.without.mem_store {x : Message} (hx : x ∈ t.store) : x ∈ s.store := by
  rw [h.store] at hx
  exact (List.mem_filter.mp hx).1

theorem State.without.fields : t.lists = s.lists ∧ t.limit = s.limit ∧ t.powered = s.powered ∧ t.mayHold = s.mayHold
    ∧ t.isChannel = s.isChannel ∧ t.channels = s.channels := by
  have hfields := h.handling
  simp only [State.handling, Prod.mk.injEq] at hfields
  obtain ⟨hlists, hchannels, hroles, hadmin, hhandOff, hpower⟩ := hfields
  have hchannel : t.isChannel = s.isChannel := funext fun p => by rw [State.isChannel, hroles, State.isChannel]
  refine ⟨hlists, funext fun prec => by rw [State.limit, hhandOff, State.limit], by rw [State.powered, hpower, State.powered],
    funext fun k => ?_, hchannel, hchannels⟩
  rw [State.mayHold, hchannel, hchannels, hadmin, State.mayHold]

theorem State.without.copyAt {n i : Nat} (hn : n ≠ m.number) : t.copyAt n i = s.copyAt n i := by
  have hfind : t.findMsg n = (s.removeMsg m.number).findMsg n := by rw [State.findMsg, h.store]; rfl
  rw [State.copyAt, hfind, findMsg_removeMsg hn, State.copyAt]

theorem State.without.mem_openings {n : Nat} {p : Port} : (n, true, p) ∈ t.store.map Message.opening
    ↔ (n, true, p) ∈ s.store.map Message.opening ∧ n ≠ m.number := by
  rw [Machine.mem_openings, Machine.mem_openings, h.store, State.removeMsg]
  constructor
  · rintro ⟨x, hx, rfl, hopen, hport⟩
    obtain ⟨hx, hne⟩ := List.mem_filter.mp hx
    exact ⟨⟨x, hx, rfl, hopen, hport⟩, bne_iff_ne.mp hne⟩
  · rintro ⟨⟨x, hx, rfl, hopen, hport⟩, hne⟩
    exact ⟨x, List.mem_filter.mpr ⟨hx, bne_iff_ne.mpr hne⟩, rfl, hopen, hport⟩

include hs

/-- A copy in a list is not one of the message removed. -/
theorem State.without.number_of_held {n i : Nat} {c : Copy} (hc : s.copyAt n i = some c) (hholder : c.holder ≠ none) : n ≠ m.number := by
  rintro rfl
  rw [copyAt_of_findMsg (findMsg_of_mem hs.distinct h.mem)] at hc
  exact hholder (h.unheld c (List.mem_of_getElem? hc))

theorem without_lawful (hkeys : t.keysInLaw) (hlodges : t.lodgesInLaw) : t.Lawful := by
  obtain ⟨hlists, hlimit, hpowered, hhold, hchannel, hchannels⟩ := h.fields
  obtain ⟨a, b, hsplit, hrest⟩ := removeMsg_split hs.distinct h.mem
  have hstore := h.store.trans hrest
  have hnumbers := removed_numbersInLaw hs.numbers h.mem h.store h.table h.last
  have hsub : t.store.Sublist s.store := by
    rw [hstore, hsplit]
    exact List.Sublist.append_left (List.sublist_cons_self m b) a
  have hlive (e : Nat) : t.liveAt e + m.liveFor e = s.liveAt e := by
    rw [State.liveAt, State.liveAt, hstore, hsplit]
    simp only [List.map_append, List.map_cons, List.sum_append, List.sum_cons]
    omega
  obtain ⟨hlength, hown, hstations, hasks, hcounts⟩ := bookInLaw_iff.mp hs.book
  have hused (e : Nat) : (t.waitingAt e).isSome = (s.waitingAt e).isSome := by rw [h.counts, Option.isSome_map]
  refine ⟨⟨hnumbers, hkeys, fun x hx => hs.messages x (hsub.subset hx), blocksInLaw_iff.mpr ⟨?_, fun l hl => ?_⟩, hlodges,
    bookInLaw_iff.mpr ⟨h.length.trans hlength, by rw [hused]; exact hown, fun x hx c hc => ?_, fun p n f hc ha => ?_, fun e w hw => ?_⟩,
    ⟨fun prec => ?_, fun x hx c hc => ?_⟩, fun hp x hx c hc k ends hstate => ?_⟩, (entriesInLaw_iff hnumbers.distinct).mpr fun p => ?_⟩
  case refine_1 => exact (blocksInLaw_iff.mp hs.blocks).1.sublist (hsub.map Message.chain).flatten
  case refine_2 => exact (blocksInLaw_iff.mp hs.blocks).2 l ((hsub.map Message.chain).subset hl)
  case refine_3 => rw [hused]; exact hstations x (hsub.subset hx) c hc
  case refine_4 =>
    rw [← isSome_waitingAt, hused, isSome_waitingAt]
    rw [hchannel] at hc
    rw [hchannels] at ha
    exact hasks p n f hc ha
  case refine_5 =>
    rw [h.counts] at hw
    obtain ⟨v, hv, rfl⟩ := Option.map_eq_some_iff.mp hw
    have hl := hlive e
    rw [hcounts e v hv]
    omega
  case refine_6 => rw [hlimit]; exact hs.attempts.1 prec
  case refine_7 => rw [hlimit]; exact hs.attempts.2 x (hsub.subset hx) c hc
  case refine_8 =>
    rw [hhold]
    exact hs.holds (hpowered ▸ hp) x (hsub.subset hx) c hc k ends hstate
  case refine_9 =>
    obtain ⟨hnodup, htrue, hstands⟩ := (entriesInLaw_iff hs.distinct).mp hs.entries p
    refine ⟨hlists ▸ hnodup, fun e he => ?_, fun hp n i c hc hholder => ?_⟩
    · rw [hlists] at he
      obtain ⟨hextensions, c, hc, hstate⟩ := htrue e he
      have hholder := (holder_of_entry hs.entries hc he rfl rfl).2
      refine ⟨hextensions, c, ?_, hstate⟩
      rw [h.copyAt (h.number_of_held hs hc (by rw [hholder]; exact nofun))]
      exact hc
    · have hn : n ≠ m.number := by
        rintro rfl
        obtain ⟨x, hx, hxn, -⟩ := (copyAt_eq_some_iff hnumbers.distinct).mp hc
        rw [h.store] at hx
        exact bne_iff_ne.mp (List.mem_filter.mp hx).2 hxn
      rw [h.copyAt hn] at hc
      obtain ⟨e, he, hen, hei⟩ := hstands (hpowered ▸ hp) n i c hc hholder
      exact ⟨e, hlists ▸ he, hen, hei⟩

/-- The keys once that of the message is out of the table and in the ring. -/
theorem State.without.keys_joined (hring : t.ring = joinRing s.ring m.key) : t.keysInLaw := by
  obtain ⟨htable, hringNodup, hmax, hapart⟩ := hs.keys
  have hmem : m.key ∈ s.dupTable := hs.numbers.2.2.2.1.mem_iff.mpr (List.mem_map_of_mem h.mem)
  have hdrop : (if Config.ringMax ≤ s.ring.length then s.ring.drop 1 else s.ring).Sublist s.ring := by
    split
    · exact List.drop_sublist ..
    · exact .refl _
  refine ⟨?_, ?_, ?_, fun k hk => ?_⟩
  · rw [h.table]; exact htable.erase _
  · rw [hring, joinRing, List.nodup_append]
    refine ⟨hringNodup.sublist hdrop, List.nodup_singleton _, fun x hx y hy hxy => ?_⟩
    rw [List.mem_singleton.mp hy] at hxy
    exact hapart x (hdrop.subset hx) (hxy ▸ hmem)
  · rw [hring]; exact joinRing_length hmax _
  · rw [hring, joinRing] at hk
    rw [h.table]
    rcases List.mem_append.mp hk with hk | hk
    · exact fun hin => hapart k (hdrop.subset hk) (List.mem_of_mem_erase hin)
    · rw [List.mem_singleton.mp hk]
      exact htable.not_mem_erase

/-- The keys once that of the message is out of the table. -/
theorem State.without.keys_erased (hring : t.ring = s.ring) : t.keysInLaw := by
  obtain ⟨htable, hringNodup, hmax, hapart⟩ := hs.keys
  refine ⟨by rw [h.table]; exact htable.erase _, hring ▸ hringNodup, hring ▸ hmax, fun k hk => ?_⟩
  rw [hring] at hk
  rw [h.table]
  exact fun hin => hapart k hk (List.mem_of_mem_erase hin)

/-- The lodge contexts once a filed message is gone. -/
theorem State.without.lodges_kept (hfiled : m.isOpen = false) (hlodges : t.lodges = s.lodges) : t.lodgesInLaw := by
  obtain ⟨hnamed, hlodged⟩ := lodgesInLaw_iff.mp hs.lodges
  obtain ⟨-, -, hpowered, -⟩ := h.fields
  refine lodgesInLaw_iff.mpr ⟨fun p l hl => ?_, fun hp n p hn => ?_⟩
  · rw [hlodges] at hl
    have hmem := hnamed p l hl
    refine (h.mem_openings).mpr ⟨hmem, fun heq => ?_⟩
    obtain ⟨x, hx, hxn, hopen, -⟩ := Machine.mem_openings.mp hmem
    have hxm : x = m := List.inj_on_of_nodup_map hs.distinct hx h.mem (hxn.trans heq)
    exact isOpen_eq_false_iff.mp hfiled (hxm ▸ hopen)
  · rw [hlodges]
    exact hlodged (hpowered ▸ hp) n p ((h.mem_openings).mp hn).1

end

/-! ### Purges -/

theorem purgeMsg_without {s : State} {m : Message} (hm : m ∈ s.store) (hunheld : ∀ c ∈ m.copies, c.holder = none) :
    (s.purgeMsg m).without s m := by
  refine ⟨hm, hunheld, ?_, ?_, ?_, length_updStations m.copies _ s, fun e => ?_, ?_⟩
  · rw [purgeMsg_eq]; rfl
  · rw [purgeMsg_eq]
  · rw [purgeMsg_eq]
  · rw [State.waitingAt, station_purgeMsg, State.waitingAt, Option.map_map, Option.map_map]
    rfl
  · rw [purgeMsg_eq]; rfl

theorem purgeMsg_lawful {s : State} {m : Message} (hs : s.Lawful) (hm : m ∈ s.store) (hfiled : m.isOpen = false)
    (hunheld : ∀ c ∈ m.copies, c.holder = none) : (s.purgeMsg m).Lawful := by
  have h := purgeMsg_without hm hunheld
  exact without_lawful hs h (h.keys_joined hs (by rw [purgeMsg_eq])) (h.lodges_kept hs hfiled (by rw [purgeMsg_eq]))

theorem holder_of_terminal {c : Copy} (h : c.terminal = true) : c.holder = none := by
  by_contra hholder
  obtain ⟨p, hp⟩ := Option.ne_none_iff_exists'.mp hholder
  have hlive := live_of_holder hp
  have hstate : c.state ≠ none := fun hnone => by simp [Copy.terminal, hnone] at h
  rw [terminal_eq hstate, hlive] at h
  cases h

theorem isOpen_of_isClosed {m : Message} (h : m.isClosed = true) : m.isOpen = false := by
  rw [isOpen_eq_false_iff]
  intro hopen
  simp [Message.isClosed, hopen] at h

theorem autoPurgeOne_lawful {s : State} {m : Message} (hs : s.Lawful) (hm : m ∈ s.store) (hclosed : m.isClosed = true) :
    (s.autoPurgeOne m).Lawful := by
  obtain ⟨-, -, -, -, -, -, hterminal⟩ := hs.messages m hm
  have hpurged := purgeMsg_lawful hs hm (isOpen_of_isClosed hclosed) fun c hc => holder_of_terminal (hterminal hclosed c hc)
  exact hpurged.of_core rfl

/-! ### The open message of a port -/

/-- The open message that a port is lodging, and its context. -/
theorem lodged_facts {s : State} {p : Port} {m : Message} (hs : s.Lawful) (h : s.lodgedMsg p = some m) : m ∈ s.store ∧ m.phase = .opened
    ∧ m.lodgedAt = p ∧ s.findMsg m.number = some m ∧ ∃ l, s.lodges.get p = some l ∧ l.number = m.number := by
  obtain ⟨l, hl, hm⟩ := Option.bind_eq_some_iff.mp h
  obtain ⟨x, hx, hxn, hopen, hport⟩ := hs.lodges.1 p l hl
  have hfind := findMsg_of_mem hs.distinct hx
  have hm : s.findMsg l.number = some m := hm
  rw [hxn, hm] at hfind
  obtain rfl : m = x := Option.some.inj hfind
  exact ⟨hx, hopen, hport, by rw [hxn]; exact hm, l, hl, hxn.symm⟩

/-- The copies of an open message are in no list and count for no station. -/
theorem open_copies {m : Message} (hm : m.inLaw) (hopen : m.phase = .opened) :
    (∀ c ∈ m.copies, c.holder = none) ∧ ∀ e, m.liveFor e = 0 := by
  obtain ⟨-, -, -, -, hopened, -, -⟩ := hm
  have hnone (c : Copy) (hc : c ∈ m.copies) := (hopened (isOpen_iff.mpr hopen) c hc).1
  refine ⟨fun c hc => by rw [Copy.holder, hnone c hc]; rfl, fun e => List.countP_eq_zero.mpr fun c hc => ?_⟩
  rw [Copy.live, hnone c hc]
  exact Bool.false_ne_true

theorem dropLodge_lawful {s : State} {p : Port} {m : Message} (hs : s.Lawful) (h : s.lodgedMsg p = some m) : (s.dropLodge p m).Lawful := by
  obtain ⟨hm, hopen, hport, -, l, hl, hln⟩ := lodged_facts hs h
  obtain ⟨hunheld, hnone⟩ := open_copies (hs.messages m hm) hopen
  have hwithout : (s.dropLodge p m).without s m := by
    refine ⟨hm, hunheld, rfl, rfl, rfl, rfl, fun e => ?_, rfl⟩
    rw [hnone, show (fun w : Nat => w - 0) = id from rfl, Option.map_id]
    rfl
  obtain ⟨hnamed, hlodged⟩ := lodgesInLaw_iff.mp hs.lodges
  refine without_lawful hs hwithout (hwithout.keys_erased hs rfl) (lodgesInLaw_iff.mpr ⟨fun q k hk => ?_, fun hp n q hn => ?_⟩)
  · have hget : (s.lodges.set p none).get q = some k := hk
    rw [PerPort.get_set] at hget
    split at hget
    · cases hget
    next hq =>
      have hmem := hnamed q k hget
      refine (hwithout.mem_openings).mpr ⟨hmem, fun heq => hq ?_⟩
      obtain ⟨x, hx, hxn, -, hxq⟩ := mem_openings.mp hmem
      have hxm : x = m := List.inj_on_of_nodup_map hs.distinct hx hm (hxn.trans heq)
      rw [← hxq, hxm, hport]
  · obtain ⟨hmem, hne⟩ := (hwithout.mem_openings).mp hn
    obtain ⟨k, hk, hkn⟩ := hlodged hp n q hmem
    refine ⟨k, ?_, hkn⟩
    have hq : q ≠ p := by
      rintro rfl
      rw [hl] at hk
      cases hk
      exact hne (hkn.symm.trans hln)
    exact (PerPort.get_set_ne _ _ hq).trans hk

end Sys2Proof.Machine
end

section
/-! PROOF. A message opened keeps the law of the whole store (R24 to R30, R49, R50). -/
namespace Sys2Proof.Machine

/-! ### The form of an open -/

theorem length_collapse_le (l : List Call) : (collapse l).length ≤ l.length := by
  induction l with
  | nil => exact le_rfl
  | cons c cs ih =>
    rw [collapse, List.length_cons, List.length_cons]
    exact Nat.succ_le_succ ((List.length_filter_le ..).trans ih)

theorem calls_of_openFields {prec : Byte} {origin : List Byte} {serial check : Half} {addressees : List (List Byte)} {f : OpenFields}
    (h : openFields prec origin serial check addressees = some f) : 1 ≤ f.calls.length ∧ f.calls.length ≤ 8 := by
  unfold openFields at h
  split at h
  next pr calls _ _ =>
    split at h
    · cases h
    next htest =>
      simp only [Bool.or_eq_true, not_or, decide_eq_true_eq, List.isEmpty_iff] at htest
      obtain ⟨⟨-, hsome⟩, hmax⟩ := htest
      have hcalls : f.calls = collapse calls := by
        split at h
        · cases h; rfl
        · obtain ⟨o, -, rfl⟩ := Option.map_eq_some_iff.mp h; rfl
      rw [hcalls]
      refine ⟨?_, (length_collapse_le calls).trans (Nat.not_lt.mp hmax)⟩
      obtain ⟨c, cs, rfl⟩ := List.exists_cons_of_ne_nil hsome
      exact Nat.succ_le_succ (Nat.zero_le _)
  next => cases h

/-! ### A message entered -/

/-- A message entered at an idle lodge context. -/
structure State.withOpen (t v : State) (p : Port) (x : Message) (l : Lodge) : Prop where
  store : t.store.Perm (x :: v.store)
  law : x.inLaw
  opened : x.phase = .opened
  empty : x.chain = []
  port : x.lodgedAt = p
  known : ∀ c ∈ x.copies, (v.waitingAt c.station).isSome = true
  idle : v.lodges.get p = none
  lodges : t.lodges = v.lodges.set p (some l)
  lodge : l.number = x.number
  handling : t.handling = v.handling
  book : t.book = v.book

theorem withOpen_lawful {t v : State} {p : Port} {x : Message} {l : Lodge} (hs : v.Lawful) (h : t.withOpen v p x l) (hnumbers : t.numbersInLaw)
    (hkeys : t.keysInLaw) : t.Lawful := by
  have hfields := h.handling
  simp only [State.handling, Prod.mk.injEq] at hfields
  obtain ⟨hlists, hchannels, hroles, hadmin, hhandOff, hpower⟩ := hfields
  have hpowered : t.powered = v.powered := by rw [State.powered, hpower, State.powered]
  have hchannel (q : Port) : t.isChannel q = v.isChannel q := by rw [State.isChannel, hroles, State.isChannel]
  have hhold (k : Port) : t.mayHold k = v.mayHold k := by rw [State.mayHold, hchannel, hchannels, hadmin, State.mayHold]
  have hlimit (prec : Prec) : t.limit prec = v.limit prec := by rw [State.limit, hhandOff, State.limit]
  have hwaiting (e : Nat) : t.waitingAt e = v.waitingAt e := by rw [State.waitingAt, State.station, h.book]; rfl
  have hmem {m : Message} : m ∈ t.store ↔ m = x ∨ m ∈ v.store := h.store.mem_iff.trans List.mem_cons
  obtain ⟨hunheld, hcount⟩ := open_copies h.law h.opened
  obtain ⟨-, -, -, -, hopened, -, -⟩ := h.law
  have hnone {c : Copy} (hc : c ∈ x.copies) := hopened (isOpen_iff.mpr h.opened) c hc
  have hlive (e : Nat) : t.liveAt e = v.liveAt e := by
    rw [State.liveAt, (h.store.map (Message.liveFor e)).sum_eq, List.map_cons, List.sum_cons, hcount, Nat.zero_add, State.liveAt]
  have hcopy {n i : Nat} {c : Copy} : t.copyAt n i = some c ↔ (x.number = n ∧ x.copies[i]? = some c) ∨ v.copyAt n i = some c := by
    rw [copyAt_eq_some_iff hnumbers.distinct, copyAt_eq_some_iff hs.distinct]
    constructor
    · rintro ⟨m, hm, hn, hc⟩
      rcases hmem.mp hm with rfl | hm
      · exact .inl ⟨hn, hc⟩
      · exact .inr ⟨m, hm, hn, hc⟩
    · rintro (⟨hn, hc⟩ | ⟨m, hm, hn, hc⟩)
      · exact ⟨x, hmem.mpr (.inl rfl), hn, hc⟩
      · exact ⟨m, hmem.mpr (.inr hm), hn, hc⟩
  have hopenings {n : Nat} {q : Port} : (n, true, q) ∈ t.store.map Message.opening
      ↔ (n = x.number ∧ q = p) ∨ (n, true, q) ∈ v.store.map Message.opening := by
    rw [(h.store.map Message.opening).mem_iff, List.map_cons, List.mem_cons, Message.opening, isOpen_iff.mpr h.opened, h.port]
    simp only [Prod.mk.injEq, true_and]
  have hchains : (t.store.map Message.chain).Perm ([] :: v.store.map Message.chain) := by
    rw [← h.empty]
    exact h.store.map Message.chain
  obtain ⟨hnamed, hlodged⟩ := lodgesInLaw_iff.mp hs.lodges
  obtain ⟨hlength, hown, hstations, hasks, hcounts⟩ := bookInLaw_iff.mp hs.book
  refine ⟨⟨hnumbers, hkeys, fun m hm => ?_, blocksInLaw_iff.mpr ⟨?_, fun c hc => ?_⟩, lodgesInLaw_iff.mpr ⟨fun q k hk => ?_, fun hp n q hn => ?_⟩,
    bookInLaw_iff.mpr ⟨?_, ?_, fun m hm c hc => ?_, fun q n f hc ha => ?_, fun e w hw => ?_⟩, ⟨fun prec => ?_, fun m hm c hc => ?_⟩,
    fun hp m hm c hc k ends hstate => ?_⟩, (entriesInLaw_iff hnumbers.distinct).mpr fun q => ?_⟩
  case refine_1 =>
    rcases hmem.mp hm with rfl | hm
    · exact h.law
    · exact hs.messages m hm
  case refine_2 => exact hchains.flatten.nodup_iff.mpr (blocksInLaw_iff.mp hs.blocks).1
  case refine_3 =>
    rcases List.mem_cons.mp (hchains.mem_iff.mp hc) with rfl | hc
    · exact fun b hb => absurd hb List.not_mem_nil
    · exact (blocksInLaw_iff.mp hs.blocks).2 c hc
  case refine_4 =>
    rw [h.lodges, PerPort.get_set] at hk
    refine hopenings.mpr ?_
    split at hk
    next hq =>
      cases hk
      exact .inl ⟨h.lodge, hq⟩
    next => exact .inr (hnamed q k hk)
  case refine_5 =>
    rw [h.lodges]
    rcases hopenings.mp hn with ⟨rfl, rfl⟩ | hn
    · exact ⟨l, PerPort.get_set_self .., h.lodge⟩
    · obtain ⟨k, hk, hkn⟩ := hlodged (hpowered ▸ hp) n q hn
      refine ⟨k, ?_, hkn⟩
      rw [PerPort.get_set_ne _ _ fun hq : q = p => ?_]
      · exact hk
      · rw [hq, h.idle] at hk
        cases hk
  case refine_6 => rw [h.book]; exact hlength
  case refine_7 => rw [hwaiting]; exact hown
  case refine_8 =>
    rw [hwaiting]
    rcases hmem.mp hm with rfl | hm
    · exact h.known c hc
    · exact hstations m hm c hc
  case refine_9 =>
    rw [← isSome_waitingAt, hwaiting, isSome_waitingAt]
    rw [hchannel] at hc
    rw [hchannels] at ha
    exact hasks q n f hc ha
  case refine_10 => rw [hlive]; exact hcounts e w (hwaiting e ▸ hw)
  case refine_11 => rw [hlimit]; exact hs.attempts.1 prec
  case refine_12 =>
    rw [hlimit]
    rcases hmem.mp hm with rfl | hm
    · obtain ⟨hstate, hattempts, -, -⟩ := hnone hc
      exact ⟨hattempts.le.trans (Nat.zero_le _), fun hidle => by simp [Copy.idle, hstate] at hidle⟩
    · exact hs.attempts.2 m hm c hc
  case refine_13 =>
    rw [hhold]
    rcases hmem.mp hm with rfl | hm
    · rw [(hnone hc).1] at hstate; cases hstate
    · exact hs.holds (hpowered ▸ hp) m hm c hc k ends hstate
  case refine_14 =>
    obtain ⟨hnodup, htrue, hstands⟩ := (entriesInLaw_iff hs.distinct).mp hs.entries q
    refine ⟨hlists ▸ hnodup, fun e he => ?_, fun hp n i c hc hholder => ?_⟩
    · rw [hlists] at he
      obtain ⟨hextensions, c, hc, hstate⟩ := htrue e he
      exact ⟨hextensions, c, hcopy.mpr (.inr hc), hstate⟩
    · rcases hcopy.mp hc with ⟨-, hc⟩ | hc
      · rw [hunheld c (List.mem_of_getElem? hc)] at hholder
        cases hholder
      · obtain ⟨e, he, hen, hei⟩ := hstands (hpowered ▸ hp) n i c hc hholder
        exact ⟨e, hlists ▸ he, hen, hei⟩

/-! ### LODGE OPEN -/

/-- What auto-purge keeps for an open: entries that no copy is addressed to, entries in use, keys that are new, the lodge contexts. -/
structure State.purgedFrom (u s : State) : Prop where
  lawful : u.Lawful
  unaddressed : ∀ e, s.unaddressed e → u.unaddressed e
  used : ∀ e, (s.station e).isSome = true → (u.station e).isSome = true
  fresh : ∀ k, k ∉ s.dupTable → k ∉ s.ring → k ∉ u.dupTable ∧ k ∉ u.ring

theorem mem_joinRing {ring : List Key} {k x : Key} (h : x ∈ joinRing ring k) : x ∈ ring ∨ x = k := by
  rw [joinRing] at h
  rcases List.mem_append.mp h with h | h
  · refine .inl ?_
    split at h
    · exact List.mem_of_mem_drop h
    · exact h
  · exact .inr (List.mem_singleton.mp h)

theorem makeRoom_purgedFrom {s u : State} {cond : State → Bool} (hs : s.Lawful) (h : s.makeRoom cond = some u) : u.purgedFrom s := by
  refine makeRoom_keeps (P := fun u => u.purgedFrom s) (fun t m ht _ hm hclosed _ => ?_) hs.distinct
    ⟨hs, fun _ h => h, fun _ h => h, fun _ h1 h2 => ⟨h1, h2⟩⟩ h
  obtain ⟨htable, -, hstations, -, heq⟩ := autoPurgeOne_spec t m
  have hkey : m.key ∈ t.dupTable := ht.lawful.numbers.2.2.2.1.mem_iff.mpr (List.mem_map_of_mem hm)
  have hring : (t.autoPurgeOne m).ring = joinRing t.ring m.key := by rw [State.autoPurgeOne, purgeMsg_eq]
  refine ⟨autoPurgeOne_lawful ht.lawful hm hclosed, fun e he x hx => ?_, fun e he => ?_, fun k h1 h2 => ?_⟩
  · rw [heq] at hx
    exact ht.unaddressed e he x (List.mem_filter.mp hx).1
  · rw [hstations, Option.isSome_map]
    exact ht.used e he
  · obtain ⟨hnot, hnot'⟩ := ht.fresh k h1 h2
    refine ⟨fun hin => hnot (List.mem_of_mem_erase (htable ▸ hin)), fun hin => ?_⟩
    rw [hring] at hin
    rcases mem_joinRing hin with hin | rfl
    · exact hnot' hin
    · exact hnot hkey

theorem station_not_made {u : State} {rs : List Resolved} {e : Nat} (h : ¬ ∃ r ∈ rs, r.made = true ∧ r.entry = e) :
    { u with book := bookAfter u.clock u.book rs }.station e = u.station e := by
  rw [State.station]
  dsimp only
  rw [getElem?_bookAfter_of_ne fun r hr hm he => h ⟨r, hr, hm, he⟩]
  rfl

section
variable {s u : State} {cs : List Call} {rs : List Resolved}
  (hresolved : resolveAll s.named s.clock cs s.book [] = some rs) (hlength : u.book.length = s.book.length) (hclock : u.clock = s.clock)
include hresolved

/-- An entry that an addressee makes is addressed by no copy. -/
theorem unaddressed_of_made (hs : s.Lawful) {r : Resolved} (hr : r ∈ rs) (hmade : r.made = true) : s.unaddressed r.entry := by
  obtain ⟨l, l', rfl⟩ := List.append_of_mem hr
  have hprovide := (over_made (over_of_resolveAll hresolved) hmade).2
  rcases provideEntry_spec hprovide with ⟨-, -, -, hfree⟩ | ⟨-, st, -, -, -, hno, -⟩
  · refine unaddressed_of_free hs ?_
    cases hst : s.station r.entry with
    | none => rfl
    | some st =>
      obtain ⟨st', hst'⟩ := bookAfter_used (now := s.clock) (rs := l) (station_eq_some_iff.mp hst)
      rw [hst'] at hfree
      cases hfree
  · exact (named_eq_false_iff.mp hno).2.1

/-- An addressee that makes no entry finds one in use, if none before it has made it. -/
theorem used_of_found {r : Resolved} (hr : r ∈ rs) (hnone : ¬ ∃ x ∈ rs, x.made = true ∧ x.entry = r.entry) :
    (s.station r.entry).isSome = true := by
  have hfound : r.made ≠ true := fun hmade => hnone ⟨r, hr, hmade, rfl⟩
  obtain ⟨l, l', rfl⟩ := List.append_of_mem hr
  have hover := over_of_resolveAll hresolved
  unfold Resolved.over at hover
  rw [if_neg hfound] at hover
  obtain ⟨⟨st, hst, -⟩, -⟩ := findCall_eq_some_iff.mp hover.1
  rw [getElem?_bookAfter_of_ne fun x hx hm he => hnone ⟨x, List.mem_append_left _ hx, hm, he⟩] at hst
  rw [station_eq_some_iff.mpr hst]
  rfl

include hlength hclock

theorem waitingAt_made {r : Resolved} (hr : r ∈ rs) (hmade : r.made = true) :
    { u with book := bookAfter u.clock u.book rs }.waitingAt r.entry = some 0 := by
  rw [State.waitingAt, State.station]
  dsimp only
  rw [hclock, getElem?_bookAfter_of_made hresolved hr hmade hlength]
  rfl

/-- The entries that the addressees make, written. -/
theorem written_lawful (hs : s.Lawful) (hu : u.purgedFrom s) : { u with book := bookAfter u.clock u.book rs }.Lawful := by
  refine rebooked_lawful hu.lawful (length_bookAfter ..) fun e => ?_
  by_cases hmade : ∃ r ∈ rs, r.made = true ∧ r.entry = e
  · obtain ⟨r, hr, hmade, rfl⟩ := hmade
    exact .inr ⟨hu.unaddressed _ (unaddressed_of_made hresolved hs hr hmade), waitingAt_made hresolved hlength hclock hr hmade⟩
  · exact .inl (by rw [station_not_made hmade])

/-- Every addressee's entry is then in use. -/
theorem written_used (hu : u.purgedFrom s) {r : Resolved} (hr : r ∈ rs) :
    ({ u with book := bookAfter u.clock u.book rs }.waitingAt r.entry).isSome = true := by
  by_cases hmade : ∃ x ∈ rs, x.made = true ∧ x.entry = r.entry
  · obtain ⟨x, hx, hm, he⟩ := hmade
    rw [← he, waitingAt_made hresolved hlength hclock hx hm]
    rfl
  · rw [isSome_waitingAt, station_not_made hmade]
    exact hu.used _ (used_of_found hresolved hr hmade)

end

theorem openKey_of_origin {f : OpenFields} {own : Call} {n : Nat} {o : Call} (h : f.origin = some o) : openKey f own n = ⟨o, f.serial⟩ := by
  rw [openKey, h]

theorem openKey_own {f : OpenFields} {own : Call} {n : Nat} (h : f.origin = none) : openKey f own n = ⟨own, n⟩ := by
  rw [openKey, h]

/-- The keys once that of the new message is in the table, and out of the ring if it is an own key (R27, R29). -/
theorem opened_keys {u : State} (hu : u.Lawful) (p : Port) {f : OpenFields} (rs : List Resolved)
    (hnew : ∀ o, f.origin = some o → (⟨o, f.serial⟩ : Key) ∉ u.dupTable ∧ (⟨o, f.serial⟩ : Key) ∉ u.ring) :
    (u.opened p f rs).keysInLaw := by
  obtain ⟨htable, hring, hmax, hapart⟩ := hu.keys
  have hsub : (if f.origin = none then u.ring.erase (openKey f u.ownCall u.nextNumber) else u.ring).Sublist u.ring := by
    split
    · exact List.erase_sublist ..
    · exact .refl _
  have hkey : openKey f u.ownCall u.nextNumber ∉ u.dupTable
      ∧ openKey f u.ownCall u.nextNumber ∉ (if f.origin = none then u.ring.erase (openKey f u.ownCall u.nextNumber) else u.ring) := by
    cases ho : f.origin with
    | none =>
      obtain ⟨-, -, hfree⟩ := nextNumber_new hu.numbers
      rw [if_pos rfl, openKey_own ho]
      refine ⟨fun hin => ?_, hring.not_mem_erase⟩
      rw [(numberTaken_iff u _).mpr (.inr hin)] at hfree
      cases hfree
    | some o =>
      rw [if_neg nofun, openKey_of_origin ho]
      exact hnew o ho
  refine ⟨?_, hring.sublist hsub, hsub.length_le.trans hmax, fun k hk => ?_⟩
  · exact List.nodup_append.mpr ⟨htable, List.nodup_singleton _, fun x hx y hy hxy =>
      hkey.1 (by rw [List.mem_singleton.mp hy] at hxy; exact hxy ▸ hx)⟩
  · refine fun hin => (List.mem_append.mp hin).elim (hapart k (hsub.subset hk)) fun hin => ?_
    rw [List.mem_singleton.mp hin] at hk
    exact hkey.2 hk

/-- A served open. -/
theorem opened_lawful {s u : State} {p : Port} {prec : Byte} {origin : List Byte} {serial check : Half} {addressees : List (List Byte)}
    {f : OpenFields} {rs : List Resolved} (hs : s.Lawful) (hfields : openFields prec origin serial check addressees = some f)
    (hempty : s.lodges.get p = none) (hresolved : resolveAll s.named s.clock f.calls s.book [] = some rs)
    (hnew : ∀ o, f.origin = some o → (⟨o, f.serial⟩ : Key) ∉ s.dupTable ∧ (⟨o, f.serial⟩ : Key) ∉ s.ring)
    (hroom : s.makeRoom (slotCondition f.prec) = some u) : (u.opened p f rs).Lawful := by
  have hu := makeRoom_purgedFrom hs hroom
  have hfrom := makeRoom_unpurged hroom
  have hclock : u.clock = s.clock := (congrArg State.clock hfrom :)
  have hlodges : u.lodges = s.lodges := (congrArg State.lodges hfrom :)
  have hlength := makeRoom_book_length hroom
  have hwritten := written_lawful hresolved hlength hclock hs hu
  obtain ⟨hone, height⟩ := calls_of_openFields hfields
  have hcount := length_resolveAll hresolved
  have hcopies : (openedMessage f (openKey f u.ownCall u.nextNumber) u.nextNumber p u.clock rs).copies.length = rs.length := List.length_map ..
  refine withOpen_lawful hwritten (p := p) (x := openedMessage f (openKey f u.ownCall u.nextNumber) u.nextNumber p u.clock rs)
    (l := ⟨u.nextNumber, later u.clock u.storeSet.openTimeout⟩) ⟨insertMsg_perm .., ?_, rfl, rfl, rfl, fun c hc => ?_, hlodges ▸ hempty, rfl, rfl, rfl, rfl⟩
    (opened_numbersInLaw hu.lawful.numbers p f rs (slots_of_condition (makeRoom_cases hroom).1))
    (opened_keys hu.lawful p rs fun o ho => hu.fresh _ (hnew o ho).1 (hnew o ho).2)
  · refine ⟨by omega, by omega, Nat.zero_le _, (by decide : 0 = (0 + 31) / 32), fun _ c hc => ?_, nofun, nofun⟩
    obtain ⟨r, -, rfl⟩ := List.mem_map.mp hc
    exact ⟨rfl, rfl, rfl, rfl⟩
  · obtain ⟨r, hr, rfl⟩ := List.mem_map.mp hc
    exact written_used hresolved hlength hclock hu hr

end Sys2Proof.Machine
end

section
/-! PROOF. A part appended to an open message, and an open message filed, keep the law of the whole store (R9, R12, R31, R32, R34, R35, R112). -/
namespace Sys2Proof.Machine

/-! ### One message changed in place -/

theorem updMsg_split {s : State} {m : Message} (hdistinct : s.numbersDistinct) (hm : m ∈ s.store) (f : Message → Message) :
    ∃ a b, s.store = a ++ m :: b ∧ (s.updMsg m.number f).store = a ++ f m :: b := by
  obtain ⟨a, b, hstore⟩ := List.append_of_mem hm
  have hnodup := hdistinct
  rw [State.numbersDistinct, hstore, List.map_append, List.map_cons, List.nodup_middle, List.nodup_cons, List.mem_append, not_or] at hnodup
  have hsame {l : List Message} (hl : m.number ∉ l.map Message.number) : l.map (fun x => if x.number == m.number then f x else x) = l := by
    conv_rhs => rw [← List.map_id l]
    refine List.map_congr_left fun x hx => if_neg fun hxm => hl ?_
    rw [← beq_iff_eq.mp hxm]
    exact List.mem_map_of_mem hx
  refine ⟨a, b, hstore, ?_⟩
  rw [State.updMsg, hstore, List.map_append, List.map_cons, hsame hnodup.1.1, hsame hnodup.1.2, if_pos (beq_self_eq_true _)]

/-- A message without a copy in a list, changed in place into another such one. -/
structure State.withChanged (t s : State) (m x : Message) : Prop where
  split : ∃ a b, s.store = a ++ m :: b ∧ t.store = a ++ x :: b
  number : x.number = m.number
  law : x.inLaw
  unheld : ∀ c ∈ m.copies, c.holder = none
  unheld' : ∀ c ∈ x.copies, c.holder = none
  allows : ∀ c ∈ x.copies, c.attempts ≤ 15 ∧ (c.idle = true → c.attempts < s.limit x.prec)
  holds : ∀ c ∈ x.copies, ∀ k ends, c.state = some (.heldFor k ends) → s.mayHold k = true
  known : ∀ c ∈ x.copies, (s.waitingAt c.station).isSome = true
  length : t.book.length = s.book.length
  counts : ∀ e, t.waitingAt e = (s.waitingAt e).map fun w => w + x.liveFor e - m.liveFor e
  handling : t.handling = s.handling

section
variable {s t : State} {m x : Message} (hs : s.Lawful) (h : t.withChanged s m x)
include h

theorem State.withChanged.mem {y : Message} : (y ∈ t.store → y = x ∨ y ∈ s.store) ∧ m ∈ s.store ∧ x ∈ t.store := by
  obtain ⟨a, b, hsplit, hstore⟩ := h.split
  rw [hsplit, hstore]
  simp only [List.mem_append, List.mem_cons]
  tauto

/-- A copy in a list is found alike before the change and after it. -/
theorem State.withChanged.copyAt_held (hs : s.numbersDistinct) (ht : t.numbersDistinct) {n i : Nat} {c : Copy} (hc : c.holder ≠ none) :
    t.copyAt n i = some c ↔ s.copyAt n i = some c := by
  rw [copyAt_eq_some_iff ht, copyAt_eq_some_iff hs]
  obtain ⟨a, b, hsplit, hstore⟩ := h.split
  rw [hsplit, hstore]
  simp only [List.mem_append, List.mem_cons]
  constructor
  · rintro ⟨y, hy | rfl | hy, hn, hi⟩
    · exact ⟨y, .inl hy, hn, hi⟩
    · exact absurd (h.unheld' c (List.mem_of_getElem? hi)) hc
    · exact ⟨y, .inr (.inr hy), hn, hi⟩
  · rintro ⟨y, hy | rfl | hy, hn, hi⟩
    · exact ⟨y, .inl hy, hn, hi⟩
    · exact absurd (h.unheld c (List.mem_of_getElem? hi)) hc
    · exact ⟨y, .inr (.inr hy), hn, hi⟩

include hs

theorem withChanged_lawful (hnumbers : t.numbersInLaw) (hkeys : t.keysInLaw) (hblocks : t.blocksInLaw) (hlodges : t.lodgesInLaw) : t.Lawful := by
  have hfields := h.handling
  simp only [State.handling, Prod.mk.injEq] at hfields
  obtain ⟨hlists, hchannels, hroles, hadmin, hhandOff, hpower⟩ := hfields
  have hpowered : t.powered = s.powered := by rw [State.powered, hpower, State.powered]
  have hchannel (q : Port) : t.isChannel q = s.isChannel q := by rw [State.isChannel, hroles, State.isChannel]
  have hhold (k : Port) : t.mayHold k = s.mayHold k := by rw [State.mayHold, hchannel, hchannels, hadmin, State.mayHold]
  have hlimit (prec : Prec) : t.limit prec = s.limit prec := by rw [State.limit, hhandOff, State.limit]
  have hused (e : Nat) : (t.waitingAt e).isSome = (s.waitingAt e).isSome := by rw [h.counts, Option.isSome_map]
  have hlive (e : Nat) : t.liveAt e + m.liveFor e = s.liveAt e + x.liveFor e := by
    obtain ⟨a, b, hsplit, hstore⟩ := h.split
    rw [State.liveAt, State.liveAt, hsplit, hstore]
    simp only [List.map_append, List.map_cons, List.sum_append, List.sum_cons]
    omega
  obtain ⟨hlength, hown, hstations, hasks, hcounts⟩ := bookInLaw_iff.mp hs.book
  refine ⟨⟨hnumbers, hkeys, fun y hy => ?_, hblocks, hlodges,
    bookInLaw_iff.mpr ⟨h.length.trans hlength, by rw [hused]; exact hown, fun y hy c hc => ?_, fun q n f hc ha => ?_, fun e w hw => ?_⟩,
    ⟨fun prec => ?_, fun y hy c hc => ?_⟩, fun hp y hy c hc k ends hstate => ?_⟩, (entriesInLaw_iff hnumbers.distinct).mpr fun q => ?_⟩
  case refine_1 =>
    rcases h.mem.1 hy with rfl | hy
    · exact h.law
    · exact hs.messages y hy
  case refine_2 =>
    rw [hused]
    rcases h.mem.1 hy with rfl | hy
    · exact h.known c hc
    · exact hstations y hy c hc
  case refine_3 =>
    rw [← isSome_waitingAt, hused, isSome_waitingAt]
    rw [hchannel] at hc
    rw [hchannels] at ha
    exact hasks q n f hc ha
  case refine_4 =>
    rw [h.counts] at hw
    obtain ⟨v, hv, rfl⟩ := Option.map_eq_some_iff.mp hw
    have hl := hlive e
    rw [hcounts e v hv]
    omega
  case refine_5 => rw [hlimit]; exact hs.attempts.1 prec
  case refine_6 =>
    rw [hlimit]
    rcases h.mem.1 hy with rfl | hy
    · exact h.allows c hc
    · exact hs.attempts.2 y hy c hc
  case refine_7 =>
    rw [hhold]
    rcases h.mem.1 hy with rfl | hy
    · exact h.holds c hc k ends hstate
    · exact hs.holds (hpowered ▸ hp) y hy c hc k ends hstate
  case refine_8 =>
    obtain ⟨hnodup, htrue, hstands⟩ := (entriesInLaw_iff hs.distinct).mp hs.entries q
    refine ⟨hlists ▸ hnodup, fun e he => ?_, fun hp n i c hc hholder => ?_⟩
    · rw [hlists] at he
      obtain ⟨hextensions, c, hc, hstate⟩ := htrue e he
      have hholder := (holder_of_entry hs.entries hc he rfl rfl).2
      exact ⟨hextensions, c, (h.copyAt_held hs.distinct hnumbers.distinct (by rw [hholder]; exact nofun)).mpr hc, hstate⟩
    · have hbefore := (h.copyAt_held hs.distinct hnumbers.distinct (by rw [hholder]; exact nofun)).mp hc
      obtain ⟨e, he, hen, hei⟩ := hstands (hpowered ▸ hp) n i c hbefore hholder
      exact ⟨e, hlists ▸ he, hen, hei⟩

end

/-! ### LODGE PART -/

theorem mem_heldBlocks {s : State} {b : Nat} : b ∈ s.heldBlocks ↔ ∃ x ∈ s.store, b ∈ x.chain := List.mem_flatMap

/-- The blocks that stand free are at least as many as the pool less the blocks held. -/
theorem freeBlocks_le (s : State) : s.freeBlocks ≤ s.freeBlockList.length := by
  have hsplit := List.length_eq_length_filter_add (l := List.range Config.blocks) fun b => s.heldBlocks.contains b
  have hheld : ((List.range Config.blocks).filter fun b => s.heldBlocks.contains b).length ≤ s.heldBlocks.length := by
    refine (List.Nodup.subperm (List.Nodup.filter _ List.nodup_range) fun b hb => ?_).length_le
    exact List.contains_iff_mem.mp (List.mem_filter.mp hb).2
  have hlength : s.heldBlocks.length = (s.store.map fun m => m.chain.length).sum := by
    rw [State.heldBlocks, List.length_flatMap]
  rw [List.length_range] at hsplit
  rw [State.freeBlocks, State.freeBlockList]
  omega

theorem need_le_of_condition {s : State} {prec : Prec} {need : Nat} (h : blockCondition prec need s = true) :
    need ≤ s.freeBlockList.length := by
  unfold blockCondition at h
  rw [Bool.or_eq_true, beq_iff_eq] at h
  rcases h with rfl | h
  · exact Nat.zero_le _
  · refine le_trans ?_ (freeBlocks_le s)
    split at h
    · exact of_decide_eq_true h
    · exact (Nat.le_add_right ..).trans (of_decide_eq_true h)

/-- An open message with bytes and blocks appended. -/
def Message.appended (bytes : List Byte) (taken : List Nat) (m : Message) : Message :=
  { m with body := m.body ++ bytes, chain := m.chain ++ taken }

theorem appended_blocks {s t : State} {m : Message} {bytes : List Byte} {taken : List Nat} {a b : List Message} (hs : s.blocksInLaw)
    (hsplit : s.store = a ++ m :: b) (hstore : t.store = a ++ m.appended bytes taken :: b) (hnodup : taken.Nodup)
    (hfree : ∀ k ∈ taken, k < Config.blocks ∧ ∀ x ∈ s.store, k ∉ x.chain) : t.blocksInLaw := by
  obtain ⟨hall, hpool⟩ := blocksInLaw_iff.mp hs
  have hperm : (t.store.map Message.chain).flatten.Perm ((s.store.map Message.chain).flatten ++ taken) := by
    rw [hstore, hsplit]
    simp only [List.map_append, List.map_cons, List.flatten_append, List.flatten_cons, Message.appended, List.append_assoc]
    exact List.Perm.append_left _ (List.Perm.append_left _ List.perm_append_comm)
  refine blocksInLaw_iff.mpr ⟨hperm.nodup_iff.mpr (List.nodup_append.mpr ⟨hall, hnodup, fun x hx y hy hxy => ?_⟩), fun l hl k hk => ?_⟩
  · subst hxy
    obtain ⟨l, hl, hxl⟩ := List.mem_flatten.mp hx
    obtain ⟨z, hz, rfl⟩ := List.mem_map.mp hl
    exact (hfree x hy).2 z hz hxl
  · have hmem := hperm.mem_iff.mp (List.mem_flatten.mpr ⟨l, hl, hk⟩)
    rcases List.mem_append.mp hmem with hmem | hmem
    · obtain ⟨l', hl', hkl⟩ := List.mem_flatten.mp hmem
      exact hpool l' hl' k hkl
    · exact (hfree k hmem).1

theorem appended_inLaw {m : Message} {bytes : List Byte} {taken : List Nat} (hm : m.inLaw) (hmax : m.body.length + bytes.length ≤ Config.bodyMax)
    (htaken : taken.length = blocksFor (m.body.length + bytes.length) - m.chain.length) : (m.appended bytes taken).inLaw := by
  obtain ⟨h1, h8, -, hchain, hopen, hfiled, hclosed⟩ := hm
  have hblock : Config.blockBytes = 32 := rfl
  refine ⟨h1, h8, ?_, ?_, hopen, hfiled, hclosed⟩
  · rw [Message.appended, List.length_append]; exact hmax
  · rw [Message.appended]
    dsimp only
    rw [List.length_append, List.length_append, htaken, blocksFor, hblock]
    omega

theorem appendPart_lawful {s : State} {p : Port} {m : Message} {bytes : List Byte} (hs : s.Lawful) (hm : s.lodgedMsg p = some m)
    (hmax : m.body.length + bytes.length ≤ Config.bodyMax)
    (hroom : blockCondition m.prec (blocksFor (m.body.length + bytes.length) - m.chain.length) s = true) :
    (s.appendPart p m bytes (blocksFor (m.body.length + bytes.length) - m.chain.length)).Lawful := by
  obtain ⟨hmem, hopen, hport, -, l, hl, hln⟩ := lodged_facts hs hm
  generalize hneed : blocksFor (m.body.length + bytes.length) - m.chain.length = need at hroom
  obtain ⟨hlength, hnodup, hfree⟩ := pickBlocks_spec need s.picks s.freeBlockList (need_le_of_condition hroom) (freeBlockList_nodup s)
  generalize htaken : pickBlocks need s.picks s.freeBlockList = taken at hlength hnodup hfree
  have hstate : s.appendPart p m bytes need = { s.updMsg m.number (Message.appended bytes taken) with
      picks := s.picks + need, lodges := s.lodges.set p (some ⟨m.number, later s.clock s.storeSet.openTimeout⟩) } := by
    rw [← htaken]; rfl
  obtain ⟨a, b, hsplit, hstore⟩ := updMsg_split hs.distinct hmem (Message.appended bytes taken)
  have hlaw := appended_inLaw (hs.messages m hmem) hmax (hlength.trans hneed.symm)
  obtain ⟨hunheld, hnone⟩ := open_copies (hs.messages m hmem) hopen
  have hnumbers := appendPart_numbersInLaw hs.numbers p m bytes need
  have hopenings : (s.updMsg m.number (Message.appended bytes taken)).store.map Message.opening = s.store.map Message.opening := by
    rw [hstore, hsplit]
    simp only [List.map_append, List.map_cons]
    rfl
  obtain ⟨hnamed, hlodged⟩ := lodgesInLaw_iff.mp hs.lodges
  rw [hstate] at hnumbers ⊢
  refine withChanged_lawful hs (m := m) (x := m.appended bytes taken) ⟨⟨a, b, hsplit, hstore⟩, rfl, hlaw, hunheld, hunheld,
    hs.attempts.2 m hmem, fun c hc k ends hheld => ?_, fun c hc => ?_, rfl, fun e => ?_, rfl⟩ hnumbers hs.keys
    (appended_blocks hs.blocks hsplit hstore hnodup fun k hk => mem_freeBlockList.mp (hfree k hk)) (lodgesInLaw_iff.mpr ?_)
  · obtain ⟨-, -, -, -, hopened, -, -⟩ := hs.messages m hmem
    rw [(hopened (isOpen_iff.mpr hopen) c hc).1] at hheld
    cases hheld
  · rw [isSome_waitingAt]; exact hs.book.2.2.1 m hmem c hc
  · have hsame : (m.appended bytes taken).liveFor e = m.liveFor e := rfl
    rw [hsame, hnone, show (fun w : Nat => w + 0 - 0) = id from rfl, Option.map_id]
    rfl
  · dsimp only
    rw [hopenings]
    refine ⟨fun q k hk => ?_, fun hp n q hn => ?_⟩
    · rw [PerPort.get_set] at hk
      split at hk
      next hq =>
        cases hk
        rw [hq, ← hln]
        exact hnamed p l hl
      next => exact hnamed q k hk
    · obtain ⟨k, hk, hkn⟩ := hlodged hp n q hn
      rw [PerPort.get_set]
      split
      next hq =>
        refine ⟨_, rfl, ?_⟩
        rw [hq, hl] at hk
        cases hk
        exact hln.symm.trans hkn
      next => exact ⟨k, hk, hkn⟩

/-! ### LODGE CLOSE -/

/-- An open message as its filing leaves it. -/
def State.filedMsg (s : State) (m : Message) : Message := { m with phase := .filed (s.filingFor m), copies := s.filedCopies m }

theorem mem_filedCopies {s : State} {m : Message} {c : Copy} (h : c ∈ s.filedCopies m) :
    ∃ d ∈ m.copies, c = { d with state := some (s.entryState m.prec d), attempts := 0, uncertain := false } := by
  obtain ⟨d, hd, rfl⟩ := List.mem_map.mp h
  exact ⟨d, hd, rfl⟩

theorem filedCopy_live {s : State} {m : Message} {c : Copy} (h : c ∈ s.filedCopies m) : c.live = true := by
  obtain ⟨d, -, rfl⟩ := mem_filedCopies h
  rcases entryState_cases s m.prec d with hx | ⟨k, ends, hx, -⟩ <;> simp [Copy.live, hx, CopyState.live]

theorem filedMsg_inLaw {s : State} {m : Message} (hm : m.inLaw) : (s.filedMsg m).inLaw := by
  obtain ⟨h1, h8, hbody, hchain, -, -, -⟩ := hm
  have hlength : (s.filedCopies m).length = m.copies.length := List.length_map ..
  refine ⟨hlength ▸ h1, hlength ▸ h8, hbody, hchain, nofun, fun _ => ⟨fun c hc => ?_, ?_⟩, nofun⟩
  · obtain ⟨d, -, rfl⟩ := mem_filedCopies hc
    exact nofun
  · obtain ⟨c, hc⟩ := List.exists_mem_of_length_pos (l := s.filedCopies m) (by omega)
    exact ⟨c, hc, filedCopy_live hc⟩

theorem filedMsg_liveFor {s : State} {m : Message} (e : Nat) : (s.filedMsg m).liveFor e = m.copies.countP fun c => c.station == e := by
  have hstations : (s.filedCopies m).countP (fun c => c.station == e) = m.copies.countP fun c => c.station == e := by
    rw [State.filedCopies, List.countP_map]; rfl
  rw [← hstations]
  exact List.countP_congr fun c hc => by rw [filedCopy_live hc, Bool.true_and]

theorem fileMsg_lawful {s : State} {p : Port} {m : Message} (hs : s.Lawful) (h : s.lodgedMsg p = some m) : (s.fileMsg p m).Lawful := by
  obtain ⟨hmem, hopen, hport, -, l, hl, hln⟩ := lodged_facts hs h
  have hstore : (s.fileMsg p m).store = (s.updMsg m.number s.filedMsg).store := by
    rw [fileMsg_eq]
    refine List.map_congr_left fun x hx => ?_
    split
    next hn =>
      have hxm : x = m := List.inj_on_of_nodup_map hs.distinct hx hmem (beq_iff_eq.mp hn)
      rw [hxm]; rfl
    next => rfl
  obtain ⟨a, b, hsplit, hfiled⟩ := updMsg_split hs.distinct hmem s.filedMsg
  rw [← hstore] at hfiled
  obtain ⟨hunheld, hnone⟩ := open_copies (hs.messages m hmem) hopen
  have hstock := s.fileMsg_stock p m
  simp only [State.stock, Prod.mk.injEq] at hstock
  obtain ⟨hshells, htable, hring, hlast, -, hpower⟩ := hstock
  have hnumbers := numbersInLaw_of_shells hshells htable hlast hs.numbers
  have hkeys : (s.fileMsg p m).keysInLaw := by
    unfold State.keysInLaw
    rw [htable, hring]
    exact hs.keys
  have hblocks : (s.fileMsg p m).blocksInLaw := by
    rw [blocksInLaw_iff, map_of_shells hshells Message.chain fun _ => rfl]
    exact blocksInLaw_iff.mp hs.blocks
  have hlodges : (s.fileMsg p m).lodges = s.lodges.set p none := by rw [fileMsg_eq]
  obtain ⟨hnamed, hlodged⟩ := lodgesInLaw_iff.mp hs.lodges
  have hdistinct := hs.distinct
  rw [State.numbersDistinct, hsplit, List.map_append, List.map_cons, List.nodup_middle, List.nodup_cons, ← List.map_append] at hdistinct
  have hopenings {n : Nat} {q : Port} : (n, true, q) ∈ (s.fileMsg p m).store.map Message.opening
      ↔ (n, true, q) ∈ s.store.map Message.opening ∧ n ≠ m.number := by
    rw [mem_openings, mem_openings, hfiled, hsplit]
    constructor
    · rintro ⟨x, hx, rfl, hxo, hxp⟩
      have hx : x ∈ a ++ b := by
        rcases List.mem_cons.mp (List.perm_middle.mem_iff.mp hx) with rfl | hx
        · cases hxo
        · exact hx
      exact ⟨⟨x, List.perm_middle.mem_iff.mpr (List.mem_cons_of_mem _ hx), rfl, hxo, hxp⟩,
        fun hxm => hdistinct.1 (hxm ▸ List.mem_map_of_mem hx)⟩
    · rintro ⟨⟨x, hx, rfl, hxo, hxp⟩, hne⟩
      refine ⟨x, List.perm_middle.mem_iff.mpr (List.mem_cons_of_mem _ ?_), rfl, hxo, hxp⟩
      rcases List.mem_cons.mp (List.perm_middle.mem_iff.mp hx) with rfl | hx
      · exact absurd rfl hne
      · exact hx
  refine withChanged_lawful hs (m := m) (x := s.filedMsg m) ⟨⟨a, b, hsplit, hfiled⟩, rfl, filedMsg_inLaw (hs.messages m hmem), hunheld,
    fun c hc => ?_, fun c hc => ?_, fun c hc k ends hheld => ?_, fun c hc => ?_, ?_, fun e => ?_, ?_⟩ hnumbers hkeys hblocks
    (lodgesInLaw_iff.mpr ⟨fun q k hk => ?_, fun hp n q hn => ?_⟩)
  · obtain ⟨d, -, rfl⟩ := mem_filedCopies hc
    exact entryState_holder ..
  · obtain ⟨d, -, rfl⟩ := mem_filedCopies hc
    exact ⟨Nat.zero_le _, fun _ => (hs.attempts.1 m.prec).1⟩
  · obtain ⟨d, -, rfl⟩ := mem_filedCopies hc
    rcases entryState_cases s m.prec d with hx | ⟨k', ends', hx, hhold⟩
    · rw [hx] at hheld; cases hheld
    · rw [hx] at hheld
      cases hheld
      exact hhold
  · obtain ⟨d, hd, rfl⟩ := mem_filedCopies hc
    rw [isSome_waitingAt]
    exact hs.book.2.2.1 m hmem d hd
  · rw [fileMsg_book]
    exact length_updStations (s.filedCopies m) (fun _ => Station.recount false true) _
  · rw [State.waitingAt, station_fileMsg, State.waitingAt, Option.map_map, Option.map_map, filedMsg_liveFor, hnone]
    rfl
  · rw [fileMsg_eq]; rfl
  · rw [hlodges, PerPort.get_set] at hk
    split at hk
    · cases hk
    next hq =>
      have hmemo := hnamed q k hk
      refine hopenings.mpr ⟨hmemo, fun heq => hq ?_⟩
      obtain ⟨x, hx, hxn, -, hxq⟩ := mem_openings.mp hmemo
      have hxm : x = m := List.inj_on_of_nodup_map hs.distinct hx hmem (hxn.trans heq)
      rw [← hxq, hxm, hport]
  · obtain ⟨hmemo, hne⟩ := hopenings.mp hn
    have hpowered : (s.fileMsg p m).powered = s.powered := by rw [State.powered, hpower, State.powered]
    obtain ⟨k, hk, hkn⟩ := hlodged (hpowered ▸ hp) n q hmemo
    refine ⟨k, ?_, hkn⟩
    rw [hlodges, PerPort.get_set_ne _ _ fun hq : q = p => ?_]
    · exact hk
    · rw [hq, hl] at hk
      cases hk
      exact hne (hkn.symm.trans hln)

end Sys2Proof.Machine
end

section
/-! PROOF. Every act keeps the law of the whole store: the starts, the loss of power, and all that a command can be (R19, R20, R177 to R183). -/
namespace Sys2Proof.Machine

/-! ### Empty stores -/

theorem clearTraffic_lawful {s : State} (hs : s.Lawful) : s.clearTraffic.checkLow.Lawful := by
  have hstation (e : Nat) : s.clearTraffic.checkLow.station e = (s.station e).map fun st => { st with waiting := 0 } := by
    have hbook : s.clearTraffic.checkLow.book = s.book.map (Option.map fun st => { st with waiting := 0 }) := by
      rw [clearTraffic_checkLow]; rfl
    rw [State.station, hbook, List.getElem?_map, State.station]
    rcases s.book[e]? with - | - | st <;> rfl
  have hchannel (p : Port) : s.clearTraffic.checkLow.isChannel p = s.isChannel p := by rw [clearTraffic_checkLow]; rfl
  have hlimit (prec : Prec) : s.clearTraffic.checkLow.limit prec = s.limit prec := by rw [clearTraffic_checkLow]; rfl
  obtain ⟨hlength, hown, -, hasks, -⟩ := hs.book
  refine (wholeInLaw_of_empty ?_ ?_ ?_ ?_ ?_ ?_ ?_ ?_ ?_ (fun p n f hc ha => ?_) (fun e st hst => ?_) fun prec => ?_).lawful
  case refine_7 => rw [clearTraffic_checkLow]; exact fun _ => (clearTraffic_low s).symm
  case refine_8 => rw [clearTraffic_checkLow]; exact (List.length_map ..).trans hlength
  case refine_9 => rw [hstation, Option.isSome_map]; exact hown
  case refine_10 =>
    rw [hstation, Option.isSome_map]
    rw [hchannel] at hc
    rw [clearTraffic_checkLow] at ha
    exact hasks p n f hc ha
  case refine_11 =>
    rw [hstation] at hst
    obtain ⟨st', -, rfl⟩ := Option.map_eq_some_iff.mp hst
    rfl
  case refine_12 => rw [hlimit]; exact hs.attempts.1 prec
  case refine_6 => rw [clearTraffic_checkLow]; exact hs.numbers.2.2.2.2
  all_goals rw [clearTraffic_checkLow]; rfl

theorem coldStart_lawful (s : State) (x : Straps) : (s.coldStart x).Lawful := by
  have hservice : (s.coldStart x).inService = false := rfl
  have hclosed (p : Port) : ((s.coldStart x).channels.get p).state = .closed := congrArg Channel.state (PerPort.get_same ..)
  exact (wholeInLaw_of_empty rfl rfl rfl rfl rfl (Nat.zero_le _) (fun h => absurd (hservice ▸ h) Bool.false_ne_true) rfl rfl
    (fun p n f _ h => by cases (hclosed p).symm.trans h) (coldBook_waiting rfl) (coldHandOff_limits rfl)).lawful

theorem losePower_lawful {s : State} (hs : s.Lawful) : { s.clearVolatile with
    power := .unpowered, roles := .same Role.off, rate := .baud19200, enable := .same 0 }.Lawful := by
  have hunpowered {P : Prop} (h : (.unpowered != Power.unpowered) = true) : P := absurd h (by decide)
  obtain ⟨hlength, hown, hstations, -, hcounts⟩ := hs.book
  refine ⟨⟨hs.numbers, hs.keys, hs.messages, hs.blocks, ⟨fun p l h => ?_, fun h => hunpowered h⟩,
    ⟨hlength, hown, hstations, fun p n f _ h => ?_, hcounts⟩, hs.attempts, fun h => hunpowered h⟩, fun p => ⟨?_, fun e he => ?_, fun h => hunpowered h⟩⟩
  · cases (PerPort.get_same (none : Option Lodge) p).symm.trans h
  · have hclosed := congrArg Channel.state (PerPort.get_same (⟨.closed, 0⟩ : Channel) p)
    cases hclosed.symm.trans h
  · exact (congrArg (fun l : List Entry => (l.map fun e => (e.number, e.index)).Nodup) (PerPort.get_same [] p)).mpr List.nodup_nil
  · have hnil := congrArg (e ∈ ·) (PerPort.get_same ([] : List Entry) p)
    exact absurd (hnil.mp he) List.not_mem_nil

/-! ### Warm starts -/

section
variable (s : State) (x : Straps) (m : Message) (c : Copy)

/-- A copy as a warm start leaves it: in no list, held for no port, and waiting only below its limit. -/
theorem restartedCopy_facts : ((s.restartedCopy x m c).state = none ↔ c.state = none) ∧ (s.restartedCopy x m c).holder = none
    ∧ (∀ k ends, (s.restartedCopy x m c).state ≠ some (.heldFor k ends)) ∧ (s.restartedCopy x m c).attempts = c.attempts
    ∧ (s.restartedCopy x m c).station = c.station
    ∧ ((s.restartedCopy x m c).idle = true → c.idle = true ∨ c.attempts < s.limit m.prec) := by
  have hadjusted : (s.adjustCopy x c).state = c.state := rfl
  rw [State.restartedCopy, recover_eq]
  dsimp only
  rw [hadjusted]
  cases hstate : c.state with
  | none => exact ⟨Iff.rfl, rfl, nofun, rfl, rfl, nofun⟩
  | some y =>
    cases y with
    | waiting => exact ⟨⟨nofun, nofun⟩, rfl, nofun, rfl, rfl, fun _ => .inl (idle_iff.mpr (.inl hstate))⟩
    | heldFor k ends => exact ⟨⟨nofun, nofun⟩, rfl, nofun, rfl, rfl, fun _ => .inl (idle_of_heldFor hstate)⟩
    | taken q =>
      by_cases hlimit : s.limit m.prec ≤ c.attempts
      · have hlimit' : s.limit m.prec ≤ (s.adjustCopy x c).attempts := hlimit
        simp only [if_pos hlimit']
        exact ⟨⟨nofun, nofun⟩, rfl, nofun, rfl, rfl, nofun⟩
      · have hlimit' : ¬ s.limit m.prec ≤ (s.adjustCopy x c).attempts := hlimit
        simp only [if_neg hlimit']
        exact ⟨⟨nofun, nofun⟩, rfl, nofun, rfl, rfl, fun _ => .inr (Nat.not_le.mp hlimit)⟩
    | withdrawing q => exact ⟨⟨nofun, nofun⟩, rfl, nofun, rfl, rfl, nofun⟩
    | _ => exact ⟨⟨nofun, nofun⟩, rfl, nofun, rfl, rfl, nofun⟩

theorem mem_restarted {d : Copy} (h : d ∈ (s.restarted x m).copies) : ∃ c ∈ m.copies, d = s.restartedCopy x m c := by
  rw [State.restarted, rephase_copies] at h
  obtain ⟨c, hc, rfl⟩ := List.mem_map.mp h
  exact ⟨c, hc, rfl⟩

end

theorem warmStart_lawful {s : State} (hs : s.Lawful) (x : Straps) : (s.warmStart x).Lawful := by
  have hnumbers := warmStart_numbersInLaw hs.numbers x
  have hmem {m : Message} (hm : m ∈ (s.warmStart x).store) : ∃ y ∈ s.store, y.isOpen = false ∧ m = s.restarted x y := by
    rw [warmStart_store] at hm
    obtain ⟨y, hy, rfl⟩ := List.mem_map.mp hm
    obtain ⟨hy, hopen⟩ := List.mem_filter.mp hy
    exact ⟨y, hy, by simpa using hopen, rfl⟩
  have hshell (y : Message) : (s.restarted x y).shell = y.shell := rephase_shell ..
  have hopen {m : Message} (hm : m ∈ (s.warmStart x).store) : m.isOpen = false := by
    obtain ⟨y, -, hy, rfl⟩ := hmem hm
    exact (rephase_isOpen ..).trans hy
  have hchains : ((s.warmStart x).store.map Message.chain).Sublist (s.store.map Message.chain) := by
    have hsame : (s.warmStart x).store.map Message.chain = (s.store.filter fun m => !m.isOpen).map Message.chain := by
      rw [warmStart_store, List.map_map]
      exact List.map_congr_left fun y _ => (fields_of_shell (hshell y)).2.1
    rw [hsame]
    exact List.filter_sublist.map _
  have hstation (e : Nat) : ((s.warmStart x).station e).isSome = (s.station e).isSome := by rw [warmStart_station, Option.isSome_map]
  have hlists (p : Port) : (s.warmStart x).lists.get p = [] := PerPort.get_same ..
  have hcopies {m : Message} (hm : m ∈ (s.warmStart x).store) {d : Copy} (hd : d ∈ m.copies) :
      ∃ y ∈ s.store, m.prec = y.prec ∧ ∃ c ∈ y.copies, d = s.restartedCopy x y c := by
    obtain ⟨y, hy, -, rfl⟩ := hmem hm
    exact ⟨y, hy, (fields_of_shell (hshell y)).2.2.1, mem_restarted s x y hd⟩
  obtain ⟨hlength, hown, hstations, -, -⟩ := hs.book
  obtain ⟨htable, hring, hmax, hapart⟩ := hs.keys
  have hsub : (s.warmStart x).dupTable.Subset s.dupTable ∧ (s.warmStart x).dupTable.Nodup := by
    rw [warmStart_dupTable]
    exact ⟨(List.diff_sublist ..).subset, htable.sublist (List.diff_sublist ..)⟩
  refine ⟨⟨hnumbers, ⟨hsub.2, hring, hmax, fun k hk hin => hapart k hk (hsub.1 hin)⟩, fun m hm => ?_, blocksInLaw_iff.mpr ⟨?_, fun l hl => ?_⟩,
    ⟨fun p l h => ?_, fun _ m hm h => ?_⟩, ⟨?_, ?_, fun m hm d hd => ?_, fun p n f _ h => ?_, fun e st hst => ?_⟩, ⟨hs.attempts.1, fun m hm d hd => ?_⟩,
    fun _ m hm d hd k ends h => ?_⟩, fun p => ⟨?_, fun e he => ?_, fun _ m hm i d hd hholder => ?_⟩⟩
  case refine_1 =>
    obtain ⟨y, hy, hfiled, rfl⟩ := hmem hm
    refine inLaw_rephase (hs.messages y hy) hfiled (List.length_map ..) (fun d hd => ?_) s.clock
    obtain ⟨c, hc, rfl⟩ := List.mem_map.mp hd
    exact mt (restartedCopy_facts s x y c).1.mp (state_of_filed (hs.messages y hy) hfiled hc)
  case refine_2 => exact (blocksInLaw_iff.mp hs.blocks).1.sublist hchains.flatten
  case refine_3 => exact (blocksInLaw_iff.mp hs.blocks).2 l (hchains.subset hl)
  case refine_4 => cases (PerPort.get_same (none : Option Lodge) p).symm.trans h
  case refine_5 => exact absurd h (isOpen_eq_false_iff.mp (hopen hm))
  case refine_6 =>
    have hbook : (s.warmStart x).book.length = s.book.length := (List.length_mapIdx ..).trans (List.length_map ..)
    exact hbook.trans hlength
  case refine_7 => rw [hstation]; exact hown
  case refine_8 =>
    obtain ⟨y, hy, -, c, hc, rfl⟩ := hcopies hm hd
    obtain ⟨-, -, -, -, hst, -⟩ := restartedCopy_facts s x y c
    rw [hst, hstation]
    exact hstations y hy c hc
  case refine_9 =>
    have hclosed := congrArg Channel.state (PerPort.get_same (⟨.closed, 0⟩ : Channel) p)
    cases hclosed.symm.trans h
  case refine_10 =>
    rw [warmStart_station] at hst
    obtain ⟨st', -, rfl⟩ := Option.map_eq_some_iff.mp hst
    rfl
  case refine_11 =>
    obtain ⟨y, hy, hprec, c, hc, rfl⟩ := hcopies hm hd
    obtain ⟨-, -, -, hattempts, -, hidle⟩ := restartedCopy_facts s x y c
    obtain ⟨hle, hbelow⟩ := hs.attempts.2 y hy c hc
    have hlimit : (s.warmStart x).limit m.prec = s.limit y.prec := by rw [hprec]; rfl
    rw [hattempts, hlimit]
    exact ⟨hle, fun h => (hidle h).elim hbelow id⟩
  case refine_12 =>
    obtain ⟨y, -, -, c, -, rfl⟩ := hcopies hm hd
    exact absurd h ((restartedCopy_facts s x y c).2.2.1 k ends)
  case refine_13 => rw [hlists]; exact List.nodup_nil
  case refine_14 => rw [hlists] at he; exact absurd he List.not_mem_nil
  case refine_15 =>
    obtain ⟨y, -, -, c, -, rfl⟩ := hcopies hm (List.mem_of_getElem? hd)
    rw [(restartedCopy_facts s x y c).2.1] at hholder
    cases hholder

theorem begun_lawful {s : State} (hs : s.Lawful) {warm failed : Bool} (h : s.power = .startUp warm failed) : (s.begun warm failed).Lawful := by
  have hpowered : s.powered = true := by rw [State.powered, h]; rfl
  have hdecayed := hs.of_core (decayAll_core s s.dispatch.decay)
  refine hdecayed.of_core ?_
  have hcore : (s.begun warm failed).core = { s.decayAll s.dispatch.decay with power := .running }.core := by
    rw [begun_eq]; rfl
  have hrunning : { s.decayAll s.dispatch.decay with power := .running }.powered = (s.decayAll s.dispatch.decay).powered :=
    (rfl : _ = true).trans hpowered.symm
  rw [hcore]
  exact congrArg (fun b => (s.store, s.dupTable, s.ring, s.lastNumber, s.lodges, (s.decayAll s.dispatch.decay).book.length,
    (s.decayAll s.dispatch.decay).waitingAt, s.lists, s.isChannel, (fun p => (s.channels.get p).state), s.mayHold, s.handOff.limits, b)) hrunning

/-! ### The acts -/

/-- The service of a request keeps the law. -/
theorem State.Serves.lawful {s t : State} {p : Port} (h : s.Serves p t) (hs : s.Lawful) : t.Lawful := by
  have keep (hsame : t.core = s.core) : t.Lawful := hs.of_core hsame
  cases h with
  | lodgeOpen hfields hempty hresolved hnew hroom =>
    have hnamed : s.named 0 = true := by simp [State.named]
    rw [serveOpen_eq fun r hr hmade => made_entry_pos hresolved hnamed hr hmade]
    exact (opened_lawful hs hfields hempty hresolved hnew hroom).of_core (checkLow_core _)
  | @lodgePart m bytes u lodged short room =>
    have hu := (makeRoom_purgedFrom hs room).lawful
    obtain ⟨-, hopen, -, hfind, l, hl, hln⟩ := lodged_facts hs lodged
    have hlodges : u.lodges = s.lodges := (congrArg State.lodges (makeRoom_unpurged room) :)
    have hlodged : u.lodgedMsg p = some m := by
      rw [lodgedMsg_some (hlodges ▸ hl), hln]
      exact findMsg_makeRoom room hs.distinct hfind hopen
    exact (appendPart_lawful hu hlodged short (makeRoom_cases room).1).of_core (checkLow_core _)
  | lodgeClose lodged => exact fileMsg_lawful hs lodged
  | lodgeDrop lodged => exact (dropLodge_lawful hs lodged).of_core (checkLow_core _)
  | ownReport found copy filed => exact ownReport_lawful hs found filed
  | lateReport found copy filed => exact lateReport_lawful hs found filed
  | extend entry below => exact extend_lawful hs entry below
  | channelOpen closed =>
    exact setChannel_lawful hs (k := p) (x := ⟨.ready, 0⟩) nofun fun _ => .inl rfl
  | channelClose => exact shutChannel_lawful hs (k := p) (x := { s.channels.get p with state := .closed }) nofun
  | askStands active room known => exact askStands_lawful hs known
  | askEnds => exact setChannel_lawful hs (k := p) (x := { s.channels.get p with state := .ready }) nofun fun _ => .inl rfl
  | heard entry => exact (entryFor_lawful hs entry).of_core (updStation_core _ _ fun _ => rfl)
  | takeLocal desk room best => exact takeLocal_lawful hs best
  | setOwnCall c => exact keep (updStation_core s 0 fun _ => rfl)
  | setStation entry => exact (entryFor_lawful hs entry).of_core (updStation_core _ _ fun _ => rfl)
  | removeStation unnamed => exact removeStation_lawful hs unnamed
  | setDispatch d =>
    have hdecayed : (if d.decay != s.dispatch.decay then s.decayAll d.decay else s).core = s.core := by
      split
      · exact decayAll_core s d.decay
      · rfl
    exact (hs.of_core hdecayed).of_core rfl
  | setHandOff tl tp tw tr ll lp lw lr lapse =>
    exact limitsLowered_lawful hs (h := handOffTaken tl tp tw tr ll lp lw lr lapse) fun prec => by cases prec <;> exact clamp_mem _
  | setChannelAdmin k m => exact enterMode_lawful hs k m
  | @restoreChannel k lapsed =>
    refine setChannel_lawful hs (k := k) (x := ⟨.closed, 0⟩) nofun fun h => ?_
    rw [lapsed] at h
    exact h.elim nofun nofun
  | cancelOne found copy cancellable => exact cancelOne_lawful hs found copy cancellable
  | cancelAll found filed => exact cancelAll_lawful hs found filed
  | pin found copy pinnable => exact pin_lawful hs found copy pinnable
  | requeue found filed => exact requeue_lawful hs found filed _
  | purge found filed free =>
    refine (purgeMsg_lawful hs (findMsg_mem found) filed fun c hc => ?_).of_core (checkLow_core _)
    exact Option.not_isSome_iff_eq_none.mp (List.any_eq_false.mp free c hc)
  | clearStore => exact clearTraffic_lawful hs
  | countDuplicate => exact keep rfl
  | _ => exact keep rfl

/-- Every act keeps the law. -/
theorem State.Acts.lawful {s t : State} (h : s.Acts t) (hs : s.Lawful) : t.Lawful := by
  cases h with
  | serves _ h => exact h.lawful hs
  | linkFault => exact hs.of_core rfl
  | grant => exact takeGrant_lawful hs
  | openTimeout _ p =>
    unfold State.expireOpen
    split
    next m _ hm =>
      split
      · exact (dropLodge_lawful hs hm).of_core (checkLow_core _)
      · exact hs
    next => exact hs
  | deadline inService p n i => exact expireEntry_lawful hs inService p n i
  | holdEnd _ n i => exact endHold_lawful hs n i
  | decay _ e p => exact decayGrade_lawful hs e p
  | coldStart _ x => exact coldStart_lawful _ x
  | warmStart _ x => exact warmStart_lawful (s := { s with latch := s.latch || !s.everPowered, everPowered := true }) (hs.of_core rfl) x
  | reset _ x => exact warmStart_lawful (s := { s with resetHeld := true }) (hs.of_core rfl) x
  | losePower => exact losePower_lawful hs
  | begin startUp => exact begun_lawful hs startUp
  | _ => exact hs.of_core rfl

theorem wholeInLaw_of_behind (s t : State) (h : t.behind = s.behind) (hs : s.wholeInLaw) : t.wholeInLaw :=
  (hs.lawful.of_core (of_behind State.core h :)).wholeInLaw (storeInLaw_of_behind s t h hs.1)

/-- Settles O60. -/
theorem wholeStoreStaysInLaw : Obligations.WholeStoreStaysInLaw := by
  intro s t hs h
  exact step_keeps (P := State.wholeInLaw) wholeInLaw_of_behind (fun _ _ hs => hs)
    (fun _ _ hacts hs => (hacts.lawful hs.lawful).wholeInLaw (hacts.storeInLaw hs.1)) hs h

end Sys2Proof.Machine
end
